-- ==== Sys2Proof/Word.lean ====
section
/-! DEFINITION. The word types of the EC448: what the manual treats as bits. -/

namespace Sys2Proof

/-- One byte of a frame (R189). -/
abbrev Byte := BitVec 8

/-- A 16-bit word: a profile signature (R27) or a satellite value (R150). -/
abbrev Half := BitVec 16

/-- A 32-bit number that wraps: a blank's serial and a cycle (R42), a batch number (R126), a round number (R148), an
order number (R17). -/
abbrev Serial := BitVec 32

end Sys2Proof
end

