-- ==== Sys2Proof/Config.lean ====
section
/-! DEFINITION. The values the manual leaves open: each is opaque, so that no proof can lean on a number. -/

namespace Sys2Proof

/-- FREE VALUE (notes/assumptions/6.md). R70: equal targets other than the ON and OFF of one segment instance "are taken
in either order". The n-th tie the machine meets is broken by this number, taken modulo the number of tied points. -/
opaque Config.tieChoice : Nat → Nat

/-- FREE VALUE (notes/assumptions/9.md). R203 lays cycles per minute out in 2 bytes, and R12 allows values above 65,535:
the bytes STATUS then carries are not stated. -/
opaque Config.cpmField : Nat → Half

/-- FREE VALUE (notes/assumptions/28.md). R151 ends a transaction at its timeout "whatever phase it is in": how many items of
R150 stood whole on the bus at the n-th free value drawn is this number, taken modulo 8. -/
opaque Config.busReached : Nat → Nat

/-- FREE VALUE (notes/assumptions/28.md). The data bytes a module had sent in a transaction that timed out, most significant
first. -/
opaque Config.busData : Nat → Half

/-- FREE VALUE (notes/assumptions/28.md). R151 sends a stop condition after a timeout "when the lines allow it": whether they allow
it at the timeout that draws the n-th free value. -/
opaque Config.busFreed : Nat → Bool

/-- FREE VALUE (notes/assumptions/28.md). Whether the byte that a timed-out transaction sent last was not acknowledged, a line held low
keeping the stop condition of R151 from being made before the timeout. -/
opaque Config.busRefused : Nat → Bool

end Sys2Proof
end

