-- ==== Sys2Proof/Syntax.lean ====
section
/-! DEFINITION. The commands of the EC448: one constructor per row of the opcode table, with the operands the spec gives the
row. The table gives no row any bits. -/

namespace Sys2Proof

/-- The three command ports (R189). -/
inductive PortId where
  | port1 | port2 | port3
  deriving DecidableEq, Repr

/-- The two channels of the register monitor (R88). -/
inductive RegChannel where
  | print | patch
  deriving DecidableEq, Repr

/-- The three pulse channels of the scheduler (R83). -/
inductive PulseChannel where
  | patch | camera | kick
  deriving DecidableEq, Repr

/-- The byte a satellite module did not acknowledge (R151): the address byte of phase 2, the register byte of phase 3 or
the address byte of phase 5 of R150. -/
inductive NackByte where
  | addressWrite | register | addressRead
  deriving DecidableEq, Repr

/-- The 42 timed points of R57, each with one action slot; `v` is the valve and `k` the segment. -/
inductive TimedPoint where
  | webSample | printOpen | printClose | patchKnife | patchOpen | patchClose
  | valveOn (v k : Fin 4) | valveOff (v k : Fin 4)
  | camera | gate | count | kick
  deriving DecidableEq, Repr

/-- One constructor per row of spec/opcode_table.json. A command of a port carries the port its transfer ends on, the tag and
the payload bytes (so the payload length is part of the command, R191, R194). -/
inductive Instr where
  /-- HARDWARE_RESET: `encA encB` are the levels of the first sample after the reset (R16). -/
  | hardwareReset (encA encB : Bool)
  /-- ENCODER_COUNT: a sample of ENC_A and ENC_B (R1); `webOk` is the level WEB_OK has then (R46). -/
  | encoderCount (encA encB webOk : Bool)
  /-- INDEX_EDGE: ENC_Z becoming active (R4); `webOk` as above. -/
  | indexEdge (webOk : Bool)
  /-- INDEX_MISSING: the standing distance of R7 is 2 × P after a forward count. -/
  | indexMissing
  /-- BLANK_CREATION: the creation boundary stands passed (R9, R43). -/
  | blankCreation
  /-- TICK: time passes to the next 1 ms tick (R11). -/
  | tick
  /-- REST_DWELL_EXPIRY: the rest counter stands at the rest dwell while the flag is MOVING (R13). -/
  | restDwellExpiry
  /-- WEB_SAMPLE: the web sample target stands passed; `webOk` is the level read (R46, R72). -/
  | webSample (webOk : Bool)
  /-- WINDOW_OPEN: the channel's window open target stands passed (R73, R88). -/
  | windowOpen (ch : RegChannel)
  /-- WINDOW_CLOSE: the channel's window close target stands passed (R73, R91). -/
  | windowClose (ch : RegChannel)
  /-- CAPTURE_EDGE: PRINT_MARK or PATCH_EDGE becoming active (R89). -/
  | captureEdge (ch : RegChannel)
  /-- SPLICE_EDGE: SPLICE becoming active (R48). -/
  | spliceEdge
  /-- PATCH_KNIFE: the knife target stands passed (R74). -/
  | patchKnife
  /-- VALVE_ON: the ON target of segment `k` of valve `v` stands passed (R80). -/
  | valveOn (v k : Fin 4)
  /-- VALVE_OFF: the OFF target of segment `k` of valve `v` stands passed (R81). -/
  | valveOff (v k : Fin 4)
  /-- VOID_SLOT_CONSUMED: the target of the void slot of `pt` stands passed (R59). -/
  | voidSlotConsumed (pt : TimedPoint)
  /-- CAMERA: the camera target stands passed (R75). -/
  | camera
  /-- GATE_DECISION: the gate target stands passed (R76). -/
  | gateDecision
  /-- COUNT_POINT: the count target stands passed (R77). -/
  | countPoint
  /-- KICK: the kick target stands passed (R79). -/
  | kick
  /-- PULSE_END: the time base stands at or past the channel's end time (R83). -/
  | pulseEnd (ch : PulseChannel)
  /-- ROUND_START: the moment of the next poll round stands reached (R148). -/
  | roundStart
  /-- TRANSACTION_ANSWER: the transaction completes with the two data bytes (R150). -/
  | transactionAnswer (hi lo : Byte)
  /-- NO_ACKNOWLEDGE: the module does not acknowledge a byte (R151). -/
  | noAcknowledge (byte : NackByte)
  /-- TRANSACTION_TIMEOUT: 1,000 µs since the transaction's start stand reached (R151). -/
  | transactionTimeout
  /-- TRANSFER_BEGIN: chip select becomes active and the whole bytes `mosi`, of which there may be none yet, are shifted in (R189,
  R190); on an open transfer, further whole bytes of it are shifted in (notes/assumptions/14.md). -/
  | transferBegin (p : PortId) (mosi : List Byte)
  /-- FRAME: a transfer ends, `bytes` being all it shifted in, with a malformed frame (R191), or with no whole byte at all, which is
  no event (R189). -/
  | frame (p : PortId) (bytes : List Byte)
  /-- UNKNOWN: a transfer ends, `bytes` being all it shifted in, with a code outside the index (R191). -/
  | unknown (p : PortId) (bytes : List Byte)
  | nop (p : PortId) (tag : Byte) (payload : List Byte)
  | identify (p : PortId) (tag : Byte) (payload : List Byte)
  | subscribe (p : PortId) (tag : Byte) (payload : List Byte)
  | noticeRead (p : PortId) (tag : Byte) (payload : List Byte)
  | status (p : PortId) (tag : Byte) (payload : List Byte)
  | start (p : PortId) (tag : Byte) (payload : List Byte)
  | stop (p : PortId) (tag : Byte) (payload : List Byte)
  | clearHalt (p : PortId) (tag : Byte) (payload : List Byte)
  | runReset (p : PortId) (tag : Byte) (payload : List Byte)
  | configWrite (p : PortId) (tag : Byte) (payload : List Byte)
  | configRead (p : PortId) (tag : Byte) (payload : List Byte)
  | stageOpen (p : PortId) (tag : Byte) (payload : List Byte)
  | stageWrite (p : PortId) (tag : Byte) (payload : List Byte)
  | stageCommit (p : PortId) (tag : Byte) (payload : List Byte)
  | stageDrop (p : PortId) (tag : Byte) (payload : List Byte)
  | slotErase (p : PortId) (tag : Byte) (payload : List Byte)
  | slotRead (p : PortId) (tag : Byte) (payload : List Byte)
  | slotSignature (p : PortId) (tag : Byte) (payload : List Byte)
  | changeoverArm (p : PortId) (tag : Byte) (payload : List Byte)
  | changeoverCancel (p : PortId) (tag : Byte) (payload : List Byte)
  | trackRead (p : PortId) (tag : Byte) (payload : List Byte)
  | registerRead (p : PortId) (tag : Byte) (payload : List Byte)
  | verdict (p : PortId) (tag : Byte) (payload : List Byte)
  | batchClose (p : PortId) (tag : Byte) (payload : List Byte)
  | batchPeek (p : PortId) (tag : Byte) (payload : List Byte)
  | batchAck (p : PortId) (tag : Byte) (payload : List Byte)
  | satelliteRead (p : PortId) (tag : Byte) (payload : List Byte)
  /-- QUADRATURE_ERROR_SAMPLE: a sample in which both inputs differ (R1). -/
  | quadratureErrorSample
  deriving DecidableEq, Repr

end Sys2Proof
end

