-- ==== Sys2Proof/Machine/State.lean ====
section
/-! DEFINITION. The state of the EC448, block by block, as plain data; its value after hardware reset; the reasons a step can
stop. -/

namespace Sys2Proof.Machine

/-! ## Shaft counter (chapter 1) -/

/-- The last direction of the shaft (R1): NONE until the first count (R4). -/
inductive Direction where
  | none | forward | reverse
  deriving DecidableEq, Repr

/-- The motion flag (R13). -/
inductive MotionFlag where
  | atRest | moving
  deriving DecidableEq, Repr

/-- The kinds of the encoder fault latch (R8). -/
inductive FaultKind where
  | none | quadrature | indexOffset | indexMissing
  deriving DecidableEq, Repr

/-- The encoder fault latch (R8): the kind and its detail (0 for NONE and QUADRATURE, which have none). -/
structure FaultLatch where
  kind : FaultKind
  detail : Int
  deriving DecidableEq, Repr

/-- The shaft counter's state (chapter 1, "The shaft counter holds"). -/
structure Shaft where
  /-- quadrature state, ENC_A (R1) -/
  quadA : Bool
  /-- quadrature state, ENC_B (R1) -/
  quadB : Bool
  lastDir : Direction
  /-- the 48-bit position (R2) -/
  position : Nat
  homed : Bool
  lastIndex : Nat
  /-- index slip count, 0 to 65,535 (R6) -/
  slips : Nat
  /-- millisecond change (R11) -/
  msChange : Int
  /-- speed window, 16 entries, oldest first (R11) -/
  window : List Int
  /-- S (R11) -/
  speed : Nat
  /-- cycles per minute as recomputed at the latest tick (R12) -/
  cyclesPerMinute : Nat
  motion : MotionFlag
  restCounter : Nat
  latch : FaultLatch
  deriving DecidableEq, Repr

/-! ## Profile store (chapter 2) -/

/-- PASS or REJECT: a verdict's result and the unverified policy (R17, R107). -/
inductive Judgement where
  | pass | reject
  deriving DecidableEq, Repr

/-- A set of the inspection sources 0 to 3 (R17). -/
structure SourceSet where
  source0 : Bool
  source1 : Bool
  source2 : Bool
  source3 : Bool
  deriving DecidableEq, Repr

/-- The reject set of a HEADER (R17): a subset of the six defects it may name. -/
structure RejectSet where
  printReg : Bool
  patchReg : Bool
  noPatch : Bool
  noGum : Bool
  timing : Bool
  unverified : Bool
  deriving DecidableEq, Repr

/-- A HEADER section (R17). -/
structure Header where
  order : Serial
  batchTarget : Nat
  overrun : Nat
  rejects : RejectSet
  policy : Judgement
  cameraUse : Bool
  expected : SourceSet
  haltOnLoss : Bool
  deriving DecidableEq, Repr

/-- A PRINT section (R18). -/
structure PrintSection where
  e : Nat
  w : Nat
  t : Nat
  deriving DecidableEq, Repr

/-- A PATCH section (R18). -/
structure PatchSection where
  knife : Nat
  e : Nat
  w : Nat
  t : Nat
  deriving DecidableEq, Repr

/-- One segment of a GUM section (R19). -/
structure Segment where
  onAngle : Nat
  offAngle : Nat
  deriving DecidableEq, Repr

/-- The content of a slot: one profile (R24). An absent GUM section differs from one with no segments. -/
structure Profile where
  header : Header
  print : PrintSection
  patch : Option PatchSection
  gum : Vector (Option (List Segment)) 4
  deriving DecidableEq, Repr

/-- The state of a profile slot (R21). -/
inductive SlotState where
  | empty | ready | active | staged | retiring
  deriving DecidableEq, Repr

/-- One of the four profile slots (R21): content and signature are absent while EMPTY. -/
structure ProfileSlot where
  state : SlotState
  content : Option Profile
  signature : Option Half
  deriving DecidableEq, Repr

/-- The staging area (R22): the holder, the sections written and the failed flag. -/
structure Staging where
  holder : Option PortId
  header : Option Header
  print : Option PrintSection
  patch : Option PatchSection
  gum : Vector (Option (List Segment)) 4
  failed : Bool
  deriving DecidableEq, Repr

/-- The trigger of a changeover (R30); SPLICE carries splice seen (R31). -/
inductive Trigger where
  | next
  | serial (n : Serial)
  | splice (seen : Bool)
  deriving DecidableEq, Repr

/-- The changeover arm: the staged slot and its trigger (R29). -/
structure ChangeoverArm where
  slot : Fin 4
  trigger : Trigger
  deriving DecidableEq, Repr

/-- The profile store's state (chapter 2, "The profile store holds"). -/
structure Profiles where
  slots : Vector ProfileSlot 4
  staging : Staging
  arm : Option ChangeoverArm
  deriving DecidableEq, Repr

/-! ## Tracking queue (chapter 3) -/

/-- Presence of a blank (R46). -/
inductive Presence where
  | pending | present | absent
  deriving DecidableEq, Repr

/-- The members of a defect set (R40). -/
inductive Defect where
  | printReg | patchReg | noPatch | noGum | timing | unverified | splice | inspectReject | holdDivert
  deriving DecidableEq, Repr

/-- The defect set of a blank (R40), one flag per member, in the order of R203. -/
structure DefectSet where
  printReg : Bool
  patchReg : Bool
  noPatch : Bool
  noGum : Bool
  timing : Bool
  unverified : Bool
  splice : Bool
  inspectReject : Bool
  holdDivert : Bool
  deriving DecidableEq, Repr

/-- A verdict entry of a record (R107 to R109). -/
structure VerdictEntry where
  source : Fin 4
  result : Judgement
  code : Byte
  late : Bool
  deriving DecidableEq, Repr

/-- The gate outcome of a blank (R118). -/
inductive GateOutcome where
  | pending | passed | diverted | skipped
  deriving DecidableEq, Repr

/-- How a blank entered the open batch (R119, R132, R133). -/
inductive Counted where
  | no | good | stray | reject
  deriving DecidableEq, Repr

/-- A blank record (R38). -/
structure Blank where
  serial : Serial
  slot : Fin 4
  presence : Presence
  defects : DefectSet
  printError : Option Int
  patchError : Option Int
  cameraDone : Bool
  verdicts : List VerdictEntry
  outcome : GateOutcome
  counted : Counted
  deriving DecidableEq, Repr

/-- The tracking queue's state (chapter 3, "The tracking queue holds"); the records stand oldest first. The last field is the model's
own (notes/assumptions/31.md). -/
structure Track where
  records : List Blank
  nextSerial : Serial
  highWater : Option Serial
  splicePending : Bool
  /-- a forward movement has passed the creation boundary (R9), and the creation is not taken yet -/
  boundaryPassed : Bool
  deriving DecidableEq, Repr

/-! ## Action scheduler (chapter 4) -/

/-- The state of an action slot (R58). -/
inductive SlotPhase where
  | unarmed | waiting | armed
  deriving DecidableEq, Repr

/-- An action slot record (R58); `angle = none` is void. The last field is the model's own (notes/assumptions/31.md). -/
structure ActionSlot where
  phase : SlotPhase
  cycle : Serial
  serial : Serial
  angle : Option Nat
  /-- valve OFF slots only: the on angle of the same segment (R58) -/
  onAngle : Option Nat
  target : Nat
  clampNoted : Bool
  /-- a forward movement has passed the target (R70), or it lay at or behind the position when it was computed (R64, R68), and the
  firing is not taken yet -/
  passed : Bool
  deriving DecidableEq, Repr

/-- An open segment instance (R80) of the valve whose set holds it, with the ON target at which it fired. -/
structure SegmentInstance where
  segment : Fin 4
  cycle : Serial
  onTarget : Nat
  deriving DecidableEq, Repr

/-- The levels of the eight outputs (R82 to R84). -/
structure Outputs where
  gum : Vector Bool 4
  patch : Bool
  camera : Bool
  gate : Bool
  kick : Bool
  deriving DecidableEq, Repr

/-- The action scheduler's state (chapter 4, "The action scheduler holds"). A pulse state is `none` when inactive, else its end
time on the 1 µs time base (R83). -/
structure Sched where
  slots : Vector ActionSlot 42
  segments : Vector (List SegmentInstance) 4
  patchPulse : Option Nat
  cameraPulse : Option Nat
  kickPulse : Option Nat
  gateLevel : Bool
  outputs : Outputs
  deriving DecidableEq, Repr

/-! ## Register monitor (chapter 5) -/

/-- The state of a register channel (R100, R101). -/
inductive ChannelState where
  | tracking | lost
  deriving DecidableEq, Repr

/-- The last judgement of a channel (R94, R95). -/
inductive LastJudgement where
  | none
  | error (s : Serial) (eps : Int)
  | missing (s : Serial)
  deriving DecidableEq, Repr

/-- A window record (R88): the blank, the expected angle, the window, the tolerance, the window's cycle and the capture. -/
structure WindowRecord where
  serial : Serial
  e : Nat
  w : Nat
  t : Nat
  cycle : Serial
  capture : Option Nat
  deriving DecidableEq, Repr

/-- One register channel (chapter 5, "Each channel holds"); `window = none` is CLOSED. -/
structure Channel where
  state : ChannelState
  value : Int
  bad : Nat
  good : Nat
  window : Option WindowRecord
  last : LastJudgement
  deriving DecidableEq, Repr

/-- The outcome of a patch knife (R92). -/
inductive KnifeOutcome where
  | fired | suppressed
  deriving DecidableEq, Repr

/-- An entry of the knife outcome list (R92). -/
structure KnifeEntry where
  serial : Serial
  outcome : KnifeOutcome
  deriving DecidableEq, Repr

/-- The register monitor's state: the two channels, PRINT's waiting judgement (R96) and PATCH's knife outcome list (R92). -/
structure RegisterMonitor where
  print : Channel
  patch : Channel
  waiting : Option WindowRecord
  knives : List KnifeEntry
  deriving DecidableEq, Repr

/-! ## Batch counter (chapter 7) -/

/-- What an open batch adopts with its first good blank (R127): absent together, present together (R126). -/
structure BatchOrder where
  slot : Fin 4
  order : Serial
  target : Nat
  overrun : Nat
  deriving DecidableEq, Repr

/-- The close pending of an open batch (R130, R129). -/
inductive ClosePending where
  | none | command | target | changeover
  deriving DecidableEq, Repr

/-- The close reason of a closed batch (R128). -/
inductive CloseReason where
  | target | changeover | command | runReset
  deriving DecidableEq, Repr

/-- The first and last serial of a batch, absent together (R126). -/
structure SerialSpan where
  first : Serial
  last : Serial
  deriving DecidableEq, Repr

/-- The fields an open and a closed batch share (chapter 7, section 7.1). -/
structure BatchBody where
  number : Serial
  order : Option BatchOrder
  good : Nat
  rejects : Nat
  strays : Nat
  span : Option SerialSpan
  held : Bool
  mixed : Bool
  deriving DecidableEq, Repr

/-- The open batch (R126). -/
structure OpenBatch where
  body : BatchBody
  pending : ClosePending
  deriving DecidableEq, Repr

/-- A closed batch record (R128). -/
structure ClosedBatch where
  body : BatchBody
  reason : CloseReason
  deriving DecidableEq, Repr

/-- The batch counter's state (chapter 7): the open batch and the batch queue, oldest first. -/
structure Batches where
  current : OpenBatch
  queue : List ClosedBatch
  deriving DecidableEq, Repr

/-! ## Satellite poller (chapter 8) -/

/-- The state of a sample entry (section 8.4). -/
inductive SatState where
  | unknown | normal | tripped | offline
  deriving DecidableEq, Repr

/-- A sample entry (chapter 8). -/
structure SampleEntry where
  state : SatState
  value : Option Half
  lastGood : Option Serial
  dwell : Nat
  failure : Nat
  deriving DecidableEq, Repr

/-- The read on the bus (R150): the entry, the start time on the 1 µs time base, the discard mark (R160), and the 7-bit address
and the register byte it reads, as the entry held them when it began (notes/assumptions/28.md). -/
structure Transaction where
  entry : Fin 8
  start : Nat
  discard : Bool
  address : Nat
  register : Nat
  deriving DecidableEq, Repr

/-- What stands on SAT_SCL and SAT_SDA in a transaction (R150, R151): the conditions the poller makes, the bytes it sends with
whether the module acknowledged them, and the bytes it receives with whether it acknowledged them. -/
inductive BusItem where
  | start
  | sent (b : Byte) (acknowledged : Bool)
  | repeatedStart
  | received (b : Byte) (acknowledged : Bool)
  | stop
  deriving DecidableEq, Repr

/-- The satellite poller's state (chapter 8). `firstRound` is the time of the first tick after START while round 0 has not
started (R148); `pollWaiting` says that the first poll of a started round waits for a discarded transaction (R149); `bus` is what
the latest transaction that ended had put on the bus (R150, R151), none since a hardware reset being the empty list. -/
structure Poller where
  running : Bool
  round : Serial
  phase : Nat
  transaction : Option Transaction
  bus : List BusItem
  entries : Vector SampleEntry 8
  firstRound : Option Nat
  pollWaiting : Bool
  deriving DecidableEq, Repr

/-! ## Run-state controller and machine configuration (chapters 9 and 10) -/

/-- The run state (R162). -/
inductive RunState where
  | off | homing | live
  deriving DecidableEq, Repr

/-- The halt causes (section 9.3). -/
inductive HaltCause where
  | operator | encoder | backlog | satellite | register
  deriving DecidableEq, Repr

/-- A set of halt causes, in the order of R203. -/
structure CauseSet where
  operator : Bool
  encoder : Bool
  backlog : Bool
  satellite : Bool
  register : Bool
  deriving DecidableEq, Repr

/-- The run-state controller's run state, halt cause set and PERMIT level (chapter 9). -/
structure RunControl where
  runState : RunState
  causes : CauseSet
  permit : Bool
  deriving DecidableEq, Repr

/-- Encoder sense (R178). -/
inductive EncoderSense where
  | normal | inverted
  deriving DecidableEq, Repr

/-- Section SHAFT (R178); pitch 0 stands for no pitch (R177). -/
structure ShaftConfig where
  pitch : Nat
  sense : EncoderSense
  creep : Nat
  restDwell : Nat
  deriving DecidableEq, Repr

/-- Section STATIONS (R179). -/
structure StationConfig where
  patch : Nat
  gum : Vector Nat 4
  camera : Nat
  gate : Nat
  delivery : Nat
  deriving DecidableEq, Repr

/-- Section ANGLES (R180). -/
structure AngleConfig where
  webSample : Nat
  camera : Nat
  gate : Nat
  count : Nat
  kick : Nat
  deriving DecidableEq, Repr

/-- The channel table entry of a gum valve (R181). -/
structure ValveConfig where
  openLead : Nat
  closeLead : Nat
  minOn : Nat
  enable : Bool
  deriving DecidableEq, Repr

/-- The channel table entry of a pulse channel (R181). -/
structure PulseConfig where
  lead : Nat
  width : Nat
  enable : Bool
  deriving DecidableEq, Repr

/-- Section CHANNELS (R181). -/
structure ChannelConfig where
  valves : Vector ValveConfig 4
  patch : PulseConfig
  camera : PulseConfig
  kick : PulseConfig
  gateLead : Nat
  gateEnable : Bool
  deriving DecidableEq, Repr

/-- Section REGISTER (R182). -/
structure RegisterConfig where
  printMax : Nat
  patchMax : Nat
  deriving DecidableEq, Repr

/-- Check sense of a satellite entry (R147). -/
inductive CheckSense where
  | below | above
  deriving DecidableEq, Repr

/-- Consequence of a satellite entry (R147). -/
inductive Consequence where
  | notice | hold | patchInhibit | gumInhibit
  deriving DecidableEq, Repr

/-- Section SATn (R183). -/
structure SatConfig where
  address : Nat
  register : Nat
  divider : Nat
  sense : CheckSense
  threshold : Nat
  dwell : Nat
  consequence : Consequence
  enable : Bool
  deriving DecidableEq, Repr

/-- The thirteen configuration sections (R177). -/
inductive ConfigSection where
  | shaft | stations | angles | channels | register
  | sat (n : Fin 8)
  deriving DecidableEq, Repr

/-- The machine configuration record (chapter 10): the sections and, in the order of R177, their written marks. -/
structure MachineConfig where
  shaft : ShaftConfig
  stations : StationConfig
  angles : AngleConfig
  channels : ChannelConfig
  register : RegisterConfig
  sats : Vector SatConfig 8
  written : Vector Bool 13
  deriving DecidableEq, Repr

/-! ## Command ports (chapter 11) -/

/-- Results of a response (R193). -/
inductive Result where
  | ok | late | refused | unknown | frame | none
  deriving DecidableEq, Repr

/-- Reasons of a response (R193, in the code order of R203). -/
inductive Reason where
  | none | held | busy | inUse | invalid | state | moving | empty | mismatch | stagingFailed | unknownSerial | gone | absent
  | notExpected | early | decided | duplicate
  deriving DecidableEq, Repr

/-- A response frame (R202): code echo, tag echo, result, reason and payload bytes. -/
structure Response where
  code : Byte
  tag : Byte
  result : Result
  reason : Reason
  payload : List Byte
  deriving DecidableEq, Repr

/-- Causes of a RUN_STATE notice (R166). -/
inductive RunCause where
  | start | homed | encoderFault | runReset
  deriving DecidableEq, Repr

/-- A notice with its content (R205). -/
inductive Notice where
  | blankAtCamera (serial order : Serial) (expected : SourceSet)
  | changeover (slot : Fin 4) (order first : Serial)
  | profileRetired (slot : Fin 4) (order : Serial)
  | batchClosed (batch : ClosedBatch)
  | backlog (number : Serial) (order : Serial) (pending : ClosePending) (good strays : Nat)
  | batchLost (body : BatchBody)
  | halt (after added removed : CauseSet) (runState : RunState) (permit : Bool)
  | runState (before after : RunState) (cause : RunCause) (active : Option (Fin 4)) (highWater : Option Serial)
      (nextSerial : Serial) (causes : CauseSet) (permit : Bool)
  | register (ch : RegChannel) (state : ChannelState) (serial : Serial) (value : Int)
  | satellite (entry : Fin 8) (before after : SatState) (value : Option Half) (round : Serial) (consequence : Consequence)
  | trackFlushed (oldest newest : Serial)
  | gap (lost : Nat)
  deriving DecidableEq, Repr

/-- The eleven subscribable notice kinds (R195), in code order; GAP is made by the port itself. -/
structure NoticeKinds where
  blankAtCamera : Bool
  changeover : Bool
  profileRetired : Bool
  batchClosed : Bool
  backlog : Bool
  batchLost : Bool
  halt : Bool
  runState : Bool
  register : Bool
  satellite : Bool
  trackFlushed : Bool
  deriving DecidableEq, Repr

/-- A port's transfer (chapter 11): IDLE; OPEN with the whole bytes shifted in so far, of which there may be none yet; or a
transfer that stood open at a hardware reset and is ignored until its chip select becomes inactive (R201). -/
inductive Transfer where
  | idle
  | shifting (mosi : List Byte)
  | ignored
  deriving DecidableEq, Repr

/-- A port's state (chapter 11, "Each port holds") with its attention line (R197). `outFrame` is the frame the current transfer
shifts out, decided when it begins (R190), and `miso` the bytes shifted out in the current or latest transfer. -/
structure Port where
  transfer : Transfer
  pending : Option Response
  subscription : NoticeKinds
  notices : List Notice
  lost : Nat
  attention : Bool
  outFrame : List Byte
  miso : List Byte
  deriving DecidableEq, Repr

/-- The three ports (R189). -/
structure Ports where
  port1 : Port
  port2 : Port
  port3 : Port
  deriving DecidableEq, Repr

/-! ## The whole part -/

/-- The state of the EC448, block by block, and the model's own fields: `webOk` (the level of the WEB_OK input), `time` (the 1 µs
time base since the latest reset, R11), `freeCount` (how many free values have been used) and `pending` (the commands that wait,
first in, first out). -/
structure State where
  shaft : Shaft
  profiles : Profiles
  track : Track
  sched : Sched
  reg : RegisterMonitor
  batch : Batches
  sat : Poller
  run : RunControl
  config : MachineConfig
  ports : Ports
  webOk : Bool
  time : Nat
  freeCount : Nat
  pending : List Instr
  deriving DecidableEq, Repr

/-- Why the machine stops with a fault: the manual names no condition that stops the part, so there is no constructor. -/
inductive Fault where
  deriving DecidableEq, Repr

/-- Why a command has no outcome. -/
inductive Refusal where
  /-- Raised by `exec` alone, for a command that has no meaning yet: safe (the model stops). No arm of this model raises it. -/
  | notModelled (mnemonic : String)
  deriving DecidableEq, Repr

/-! ## Reset contents -/

/-- R16. The first sample's levels are inactive (notes/assumptions/1.md). -/
def Shaft.reset : Shaft where
  quadA := false
  quadB := false
  lastDir := .none
  position := 0
  homed := false
  lastIndex := 0
  slips := 0
  msChange := 0
  window := List.replicate 16 0
  speed := 0
  cyclesPerMinute := 0
  motion := .atRest
  restCounter := 0
  latch := ⟨.none, 0⟩

/-- R37, R25: a free staging area. -/
def Staging.free : Staging where
  holder := none
  header := none
  print := none
  patch := none
  gum := Vector.replicate 4 none
  failed := false

/-- R37. -/
def Profiles.reset : Profiles where
  slots := Vector.replicate 4 ⟨.empty, none, none⟩
  staging := Staging.free
  arm := none

/-- R56. -/
def Track.reset : Track where
  records := []
  nextSerial := 1
  highWater := none
  splicePending := false
  boundaryPassed := false

/-- R58: an UNARMED slot; its other fields hold no meaning (notes/assumptions/3.md). -/
def ActionSlot.reset : ActionSlot where
  phase := .unarmed
  cycle := 0
  serial := 0
  angle := none
  onAngle := none
  target := 0
  clampNoted := false
  passed := false

/-- All eight outputs inactive (R86). -/
def Outputs.inactive : Outputs where
  gum := Vector.replicate 4 false
  patch := false
  camera := false
  gate := false
  kick := false

/-- R86. -/
def Sched.reset : Sched where
  slots := Vector.replicate 42 ActionSlot.reset
  segments := Vector.replicate 4 []
  patchPulse := none
  cameraPulse := none
  kickPulse := none
  gateLevel := false
  outputs := Outputs.inactive

/-- R105. -/
def Channel.reset : Channel where
  state := .tracking
  value := 0
  bad := 0
  good := 0
  window := none
  last := .none

/-- R105. -/
def RegisterMonitor.reset : RegisterMonitor where
  print := Channel.reset
  patch := Channel.reset
  waiting := none
  knives := []

/-- A new open batch with the given number (R126). -/
def OpenBatch.fresh (number : Serial) : OpenBatch where
  body :=
    { number := number, order := none, good := 0, rejects := 0, strays := 0, span := none, held := false, mixed := false }
  pending := .none

/-- R144. -/
def Batches.reset : Batches where
  current := OpenBatch.fresh 1
  queue := []

/-- R160, R161: an UNKNOWN entry. -/
def SampleEntry.reset : SampleEntry where
  state := .unknown
  value := none
  lastGood := none
  dwell := 0
  failure := 0

/-- R161. -/
def Poller.reset : Poller where
  running := false
  round := 0
  phase := 0
  transaction := none
  bus := []
  entries := Vector.replicate 8 SampleEntry.reset
  firstRound := none
  pollWaiting := false

/-- The empty halt cause set. -/
def CauseSet.empty : CauseSet := ⟨false, false, false, false, false⟩

/-- R176. -/
def RunControl.reset : RunControl where
  runState := .off
  causes := CauseSet.empty
  permit := false

/-- R177: the reset content of every section, every written mark NO. -/
def MachineConfig.reset : MachineConfig where
  shaft := { pitch := 0, sense := .normal, creep := 1, restDwell := 1000 }
  stations := { patch := 0, gum := Vector.replicate 4 0, camera := 0, gate := 0, delivery := 0 }
  angles := { webSample := 0, camera := 0, gate := 0, count := 0, kick := 0 }
  channels :=
    { valves := Vector.replicate 4 ⟨0, 0, 0, false⟩, patch := ⟨0, 0, false⟩, camera := ⟨0, 0, false⟩, kick := ⟨0, 0, false⟩,
      gateLead := 0, gateEnable := false }
  register := ⟨0, 0⟩
  sats := Vector.replicate 8 ⟨0, 0, 1, .below, 0, 1, .notice, false⟩
  written := Vector.replicate 13 false

/-- The empty subscription (R201). -/
def NoticeKinds.empty : NoticeKinds := ⟨false, false, false, false, false, false, false, false, false, false, false⟩

/-- R201. -/
def Port.reset : Port where
  transfer := .idle
  pending := none
  subscription := NoticeKinds.empty
  notices := []
  lost := 0
  attention := false
  outFrame := []
  miso := []

/-- The machine right after hardware reset: every block as its own reset rule states (R176 names them). -/
def State.reset : State where
  shaft := Shaft.reset
  profiles := Profiles.reset
  track := Track.reset
  sched := Sched.reset
  reg := RegisterMonitor.reset
  batch := Batches.reset
  sat := Poller.reset
  run := RunControl.reset
  config := MachineConfig.reset
  ports := ⟨Port.reset, Port.reset, Port.reset⟩
  webOk := false
  time := 0
  freeCount := 0
  pending := []

end Sys2Proof.Machine
end

