-- ==== Sys2Proof/Machine/Ops.lean ====
section
/-! DEFINITION. The named operations over the state that several chapters share: serial order, positions, record lookups and
writes, notices, halt causes, the run state, the byte items of R203. -/

namespace Sys2Proof.Machine

/-! ## Lists and vectors -/

/-- Apply `f` to every element of a vector. -/
def mapVector {α β : Type} {n : Nat} (f : α → β) (v : Vector α n) : Vector β n :=
  ⟨⟨v.toArray.toList.map f⟩, by simp⟩

/-- Add one, holding at `limit`. -/
def countUpTo (limit n : Nat) : Nat := if n < limit then n + 1 else limit

/-! ## Serials ([INTRO:CONV], R42) -/

/-- Serial `a` is newer than `b`: (a − b) modulo 2^32 lies from 1 to 2^31 − 1. -/
def serialNewer (a b : Serial) : Bool := decide (1 ≤ (a - b).toNat) && decide ((a - b).toNat < 2 ^ 31)

/-! ## Positions (R2) -/

/-- The pitch in force; 0 stands for no pitch (R177). -/
def State.pitch (s : State) : Nat := s.config.shaft.pitch

/-- M = 2^32 × P, the modulus of the position while homed (R2). -/
def modulusOf (pitch : Nat) : Nat := 2 ^ 32 * pitch

/-- (x − y) mod M (R2, R7). -/
def forwardDistance (pitch x y : Nat) : Nat := (x + (modulusOf pitch - y % modulusOf pitch)) % modulusOf pitch

/-- Position `x` is at or beyond position `y` (R2). -/
def atOrBeyond (pitch x y : Nat) : Bool := decide (forwardDistance pitch x y < 2 ^ 31 * pitch)

/-- (c − 1) × P, the position at which cycle `c` begins (R2). -/
def cycleStart (pitch : Nat) (c : Serial) : Nat := (c - 1).toNat * pitch

/-- The cycle of a position (R2). -/
def cycleOfPosition (pitch position : Nat) : Serial := BitVec.ofNat 32 (position / pitch + 1)

/-- Position `y` relative to `base` as a signed distance: the one of the two readings modulo M that R2's order gives. -/
def signedDistance (pitch y base : Nat) : Int :=
  if atOrBeyond pitch y base then (forwardDistance pitch y base : Int)
  else (forwardDistance pitch y base : Int) - (modulusOf pitch : Int)

/-- The position `distance` counts from `base`, taken modulo M (R63). -/
def offsetPosition (pitch base : Nat) (distance : Int) : Nat :=
  (((base : Int) + distance) % (modulusOf pitch : Int)).toNat

/-! ## Sets -/

/-- Whether a defect set holds a member (R40). -/
def DefectSet.has (d : DefectSet) : Defect → Bool
  | .printReg => d.printReg
  | .patchReg => d.patchReg
  | .noPatch => d.noPatch
  | .noGum => d.noGum
  | .timing => d.timing
  | .unverified => d.unverified
  | .splice => d.splice
  | .inspectReject => d.inspectReject
  | .holdDivert => d.holdDivert

/-- A member joins the defect set (R40). -/
def DefectSet.insert (d : DefectSet) : Defect → DefectSet
  | .printReg => { d with printReg := true }
  | .patchReg => { d with patchReg := true }
  | .noPatch => { d with noPatch := true }
  | .noGum => { d with noGum := true }
  | .timing => { d with timing := true }
  | .unverified => { d with unverified := true }
  | .splice => { d with splice := true }
  | .inspectReject => { d with inspectReject := true }
  | .holdDivert => { d with holdDivert := true }

/-- The empty defect set (R38). -/
def DefectSet.empty : DefectSet := ⟨false, false, false, false, false, false, false, false, false⟩

/-- Whether a defect set holds a member of a reject set (R117). -/
def DefectSet.meets (d : DefectSet) (r : RejectSet) : Bool :=
  (d.printReg && r.printReg) || (d.patchReg && r.patchReg) || (d.noPatch && r.noPatch) || (d.noGum && r.noGum)
    || (d.timing && r.timing) || (d.unverified && r.unverified)

/-- Whether a source is in a set of sources (R17). -/
def SourceSet.has (x : SourceSet) (i : Fin 4) : Bool :=
  match i with
  | 0 => x.source0
  | 1 => x.source1
  | 2 => x.source2
  | 3 => x.source3

/-- Whether a halt cause set holds a cause (R167). -/
def CauseSet.has (x : CauseSet) : HaltCause → Bool
  | .operator => x.operator
  | .encoder => x.encoder
  | .backlog => x.backlog
  | .satellite => x.satellite
  | .register => x.register

/-- Add a cause to the set (R167). -/
def CauseSet.insert (x : CauseSet) : HaltCause → CauseSet
  | .operator => { x with operator := true }
  | .encoder => { x with encoder := true }
  | .backlog => { x with backlog := true }
  | .satellite => { x with satellite := true }
  | .register => { x with register := true }

/-- The causes of `x` that are not in `y`. -/
def CauseSet.minus (x y : CauseSet) : CauseSet :=
  ⟨x.operator && !y.operator, x.encoder && !y.encoder, x.backlog && !y.backlog, x.satellite && !y.satellite,
   x.register && !y.register⟩

/-- The set is empty. -/
def CauseSet.isEmpty (x : CauseSet) : Bool := !(x.operator || x.encoder || x.backlog || x.satellite || x.register)

/-! ## Ports and notices (R195 to R197) -/

/-- One port. -/
def Ports.get (x : Ports) : PortId → Port
  | .port1 => x.port1
  | .port2 => x.port2
  | .port3 => x.port3

/-- Replace one port. -/
def Ports.set (x : Ports) (p : PortId) (v : Port) : Ports :=
  match p with
  | .port1 => { x with port1 := v }
  | .port2 => { x with port2 := v }
  | .port3 => { x with port3 := v }

/-- One port of the part. -/
def State.port (s : State) (p : PortId) : Port := s.ports.get p

/-- Replace one port of the part. -/
def State.setPort (s : State) (p : PortId) (v : Port) : State := { s with ports := s.ports.set p v }

/-- Whether a subscription holds a notice's kind (R195); GAP is no subscribable kind. -/
def NoticeKinds.holds (k : NoticeKinds) : Notice → Bool
  | .blankAtCamera .. => k.blankAtCamera
  | .changeover .. => k.changeover
  | .profileRetired .. => k.profileRetired
  | .batchClosed .. => k.batchClosed
  | .backlog .. => k.backlog
  | .batchLost .. => k.batchLost
  | .halt .. => k.halt
  | .runState .. => k.runState
  | .register .. => k.register
  | .satellite .. => k.satellite
  | .trackFlushed .. => k.trackFlushed
  | .gap .. => false

/-- Records a notice queue holds at most (R196). -/
def noticeQueueLimit : Nat := 32

/-- A port's queue with `notices`, its attention line following it (R197). -/
def Port.withNotices (p : Port) (notices : List Notice) : Port :=
  { p with notices := notices, attention := !notices.isEmpty }

/-- A port queues its copy of a posted notice (R195, R196). -/
def Port.queueNotice (p : Port) (n : Notice) : Port :=
  if p.subscription.holds n then
    if p.lost = 0 then
      if p.notices.length < noticeQueueLimit then p.withNotices (p.notices ++ [n])
      else { p with lost := countUpTo 65535 p.lost }
    else if p.notices.length + 2 ≤ noticeQueueLimit then
      { p.withNotices (p.notices ++ [.gap p.lost, n]) with lost := 0 }
    else { p with lost := countUpTo 65535 p.lost }
  else p

/-- Post a notice: every port subscribed to its kind queues a copy (R195). -/
def post (n : Notice) (s : State) : State :=
  { s with ports := ⟨s.ports.port1.queueNotice n, s.ports.port2.queueNotice n, s.ports.port3.queueNotice n⟩ }

/-! ## Halt causes and the run state (R166 to R169) -/

/-- PERMIT is active exactly when the run state is HOMING or LIVE and the halt cause set is empty (R168). -/
def permitOf (r : RunState) (causes : CauseSet) : Bool := !(r == .off) && causes.isEmpty

/-- Set the run state and the halt cause set, PERMIT following them (R168). -/
def State.setRun (s : State) (r : RunState) (causes : CauseSet) : State :=
  { s with run := { runState := r, causes := causes, permit := permitOf r causes } }

/-- The slot in state ACTIVE (R21), if any. -/
def Profiles.active (p : Profiles) : Option (Fin 4) :=
  [0, 1, 2, 3].find? fun i : Fin 4 => p.slots[i.val].state == .active

/-- Post the HALT notice of a change of the halt cause set from `before` (R169). -/
def postHalt (before : CauseSet) (s : State) : State :=
  post (.halt s.run.causes (s.run.causes.minus before) (before.minus s.run.causes) s.run.runState s.run.permit) s

/-- A halt cause is handed to the run-state controller (R167). -/
def handCause (c : HaltCause) (s : State) : State :=
  if s.run.causes.has c then s
  else postHalt s.run.causes (s.setRun s.run.runState (s.run.causes.insert c))

/-- Post the RUN_STATE notice of a change of the run state from `before` (R166). -/
def postRunState (before : RunState) (cause : RunCause) (s : State) : State :=
  post (.runState before s.run.runState cause (if s.run.runState = .off then none else s.profiles.active)
    s.track.highWater s.track.nextSerial s.run.causes s.run.permit) s

/-! ## Blank records (R39, R50) -/

/-- The answer of the tracking queue to a lookup by serial (R50). -/
inductive Lookup where
  | found (b : Blank)
  | unknownSerial
  | gone
  deriving DecidableEq, Repr

/-- The record with a serial, if held. -/
def Track.find (t : Track) (n : Serial) : Option Blank := t.records.find? fun b => b.serial == n

/-- Whether a serial that is not held is newer than the high-water cycle, or the queue is empty (R50). -/
def Track.beyondNewest (t : Track) (n : Serial) : Bool :=
  t.records.isEmpty ||
    match t.highWater with
    | none => true
    | some h => serialNewer n h

/-- Look a serial up (R50). -/
def Track.lookup (t : Track) (n : Serial) : Lookup :=
  match t.find n with
  | some b => .found b
  | none => if t.beyondNewest n then .unknownSerial else .gone

/-- Apply `f` to the record with serial `n`; without such a record no write is made (R50). -/
def State.updateBlank (s : State) (n : Serial) (f : Blank → Blank) : State :=
  { s with track := { s.track with records := s.track.records.map fun b => if b.serial = n then f b else b } }

/-- A defect joins the set of the record with serial `n` (R40). -/
def addDefect (n : Serial) (d : Defect) (s : State) : State :=
  s.updateBlank n fun b => { b with defects := b.defects.insert d }

/-- Presence leaves PENDING once (R39). -/
def Blank.setPresence (b : Blank) (p : Presence) : Blank :=
  if b.presence = .pending then { b with presence := p } else b

/-- The print error is written once (R39). -/
def Blank.setPrintError (b : Blank) (e : Int) : Blank :=
  if b.printError = none then { b with printError := some e } else b

/-- The patch error is written once (R39). -/
def Blank.setPatchError (b : Blank) (e : Int) : Blank :=
  if b.patchError = none then { b with patchError := some e } else b

/-- The gate outcome leaves PENDING once (R39). -/
def Blank.setOutcome (b : Blank) (o : GateOutcome) : Blank :=
  if b.outcome = .pending then { b with outcome := o } else b

/-- Counted leaves NO once (R39). -/
def Blank.setCounted (b : Blank) (c : Counted) : Blank :=
  if b.counted = .no then { b with counted := c } else b

/-- The profile of a slot (R24). -/
def Profiles.contentOf (p : Profiles) (i : Fin 4) : Option Profile := p.slots[i.val].content

/-- The order number of a slot's HEADER; an EMPTY slot has none and reads 0 (notes/assumptions/12.md). -/
def Profiles.orderOf (p : Profiles) (i : Fin 4) : Serial :=
  match p.contentOf i with
  | some c => c.header.order
  | none => 0

/-- The profile that governs the record with serial `n` (R57). -/
def State.profileOf (s : State) (n : Serial) : Option Profile :=
  match s.track.find n with
  | some b => s.profiles.contentOf b.slot
  | none => none

/-! ## Byte items (R203) -/

/-- An unsigned number in one byte. -/
def byteOf (n : Nat) : List Byte := [BitVec.ofNat 8 n]

/-- An unsigned number in two bytes, big-endian. -/
def bytes2 (n : Nat) : List Byte := [BitVec.ofNat 8 (n / 256), BitVec.ofNat 8 n]

/-- An unsigned number in four bytes, big-endian. -/
def bytes4 (n : Nat) : List Byte := bytes2 (n / 65536) ++ bytes2 (n % 65536)

/-- A shaft position in six bytes, big-endian. -/
def bytes6 (n : Nat) : List Byte := bytes2 (n / 4294967296) ++ bytes4 (n % 4294967296)

/-- A 32-bit number in four bytes. -/
def serialBytes (n : Serial) : List Byte := bytes4 n.toNat

/-- A signed number in two bytes, two's complement. -/
def signed2 (i : Int) : List Byte := bytes2 (BitVec.ofInt 16 i).toNat

/-- A signed number in four bytes, two's complement. -/
def signed4 (i : Int) : List Byte := bytes4 (BitVec.ofInt 32 i).toNat

/-- A flag: NO 0, YES 1. -/
def flagByte (b : Bool) : List Byte := [if b then 1 else 0]

/-- A set as a bit mask whose bit 0 is the first flag. -/
def maskOf : List Bool → Nat
  | [] => 0
  | b :: bs => (if b then 1 else 0) + 2 * maskOf bs

/-- An optional item of `width` bytes: a presence byte, then the item, all 0 when absent. -/
def optionalItem {α : Type} (width : Nat) (f : α → List Byte) : Option α → List Byte
  | none => 0 :: List.replicate width 0
  | some x => 1 :: f x

/-- The byte of `bytes` at index `i`, as a number. -/
def u8At (bytes : List Byte) (i : Nat) : Nat := (bytes.getD i 0).toNat

/-- The big-endian two-byte number of `bytes` at index `i`. -/
def u16At (bytes : List Byte) (i : Nat) : Nat := 256 * u8At bytes i + u8At bytes (i + 1)

/-- The big-endian four-byte number of `bytes` at index `i`. -/
def u32At (bytes : List Byte) (i : Nat) : Serial := BitVec.ofNat 32 (65536 * u16At bytes i + u16At bytes (i + 2))

end Sys2Proof.Machine
end

