-- ==== Sys2Proof/Machine/Operands.lean ====
section
/-! DEFINITION. Every operand form a command frame can carry (R202 to R207): the codes of enumerations and sets, the profile
sections and the configuration sections, with the checks of R17 to R19 and R178 to R183, and the layouts they are read back in. -/

namespace Sys2Proof.Machine

/-! ## Codes of the enumerations (R203) -/

/-- A flag code: 0 or 1. -/
def flagOfCode (n : Nat) : Bool := n == 1

def Judgement.code : Judgement → Nat
  | .pass => 0
  | .reject => 1

def SlotState.code : SlotState → Nat
  | .empty => 0
  | .ready => 1
  | .active => 2
  | .staged => 3
  | .retiring => 4

def RunState.code : RunState → Nat
  | .off => 0
  | .homing => 1
  | .live => 2

def RunCause.code : RunCause → Nat
  | .start => 0
  | .homed => 1
  | .encoderFault => 2
  | .runReset => 3

def Presence.code : Presence → Nat
  | .pending => 0
  | .present => 1
  | .absent => 2

def GateOutcome.code : GateOutcome → Nat
  | .pending => 0
  | .passed => 1
  | .diverted => 2
  | .skipped => 3

def Counted.code : Counted → Nat
  | .no => 0
  | .good => 1
  | .stray => 2
  | .reject => 3

def CloseReason.code : CloseReason → Nat
  | .target => 0
  | .changeover => 1
  | .command => 2
  | .runReset => 3

def ClosePending.code : ClosePending → Nat
  | .none => 0
  | .command => 1
  | .target => 2
  | .changeover => 3

def regChannelCode : RegChannel → Nat
  | .print => 0
  | .patch => 1

def ChannelState.code : ChannelState → Nat
  | .tracking => 0
  | .lost => 1

def KnifeOutcome.code : KnifeOutcome → Nat
  | .fired => 0
  | .suppressed => 1

def SatState.code : SatState → Nat
  | .unknown => 0
  | .normal => 1
  | .tripped => 2
  | .offline => 3

def Consequence.code : Consequence → Nat
  | .notice => 0
  | .hold => 1
  | .patchInhibit => 2
  | .gumInhibit => 3

def CheckSense.code : CheckSense → Nat
  | .below => 0
  | .above => 1

def EncoderSense.code : EncoderSense → Nat
  | .normal => 0
  | .inverted => 1

def MotionFlag.code : MotionFlag → Nat
  | .atRest => 0
  | .moving => 1

def FaultKind.code : FaultKind → Nat
  | .none => 0
  | .quadrature => 1
  | .indexOffset => 2
  | .indexMissing => 3

def Result.code : Result → Nat
  | .ok => 0
  | .late => 1
  | .refused => 2
  | .unknown => 3
  | .frame => 4
  | .none => 5

def Reason.code : Reason → Nat
  | .none => 0
  | .held => 1
  | .busy => 2
  | .inUse => 3
  | .invalid => 4
  | .state => 5
  | .moving => 6
  | .empty => 7
  | .mismatch => 8
  | .stagingFailed => 9
  | .unknownSerial => 10
  | .gone => 11
  | .absent => 12
  | .notExpected => 13
  | .early => 14
  | .decided => 15
  | .duplicate => 16

/-- The staging holder code: none 0, PORT1 to PORT3 1 to 3. -/
def holderCode : Option PortId → Nat
  | none => 0
  | some .port1 => 1
  | some .port2 => 2
  | some .port3 => 3

/-- A port's number, 1 to 3 (R200). -/
def portNumber : PortId → Nat
  | .port1 => 1
  | .port2 => 2
  | .port3 => 3

/-- The codes of the configuration sections run from 0 in the order of R177. -/
def ConfigSection.code : ConfigSection → Nat
  | .shaft => 0
  | .stations => 1
  | .angles => 2
  | .channels => 3
  | .register => 4
  | .sat n => 5 + n.val

/-- The section a configuration section code names. -/
def configSectionOf (n : Nat) : Option ConfigSection :=
  match n with
  | 0 => some .shaft
  | 1 => some .stations
  | 2 => some .angles
  | 3 => some .channels
  | 4 => some .register
  | k + 5 => if h : k < 8 then some (.sat ⟨k, h⟩) else none

/-- The index of a section among the written marks (R177). -/
def ConfigSection.index : ConfigSection → Fin 13
  | .shaft => 0
  | .stations => 1
  | .angles => 2
  | .channels => 3
  | .register => 4
  | .sat n => ⟨5 + n.val, by omega⟩

/-- The slot a slot number names (R21). -/
def slotOf (n : Nat) : Option (Fin 4) := if h : n < 4 then some ⟨n, h⟩ else none

/-! ## Sets as masks (R203) -/

def SourceSet.mask (x : SourceSet) : Nat := maskOf [x.source0, x.source1, x.source2, x.source3]

/-- The set of sources a mask below 16 names. -/
def sourceSetOf (n : Nat) : SourceSet := ⟨n.testBit 0, n.testBit 1, n.testBit 2, n.testBit 3⟩

def RejectSet.mask (x : RejectSet) : Nat := maskOf [x.printReg, x.patchReg, x.noPatch, x.noGum, x.timing, x.unverified]

/-- The reject set a mask below 64 names. -/
def rejectSetOf (n : Nat) : RejectSet :=
  ⟨n.testBit 0, n.testBit 1, n.testBit 2, n.testBit 3, n.testBit 4, n.testBit 5⟩

def DefectSet.mask (d : DefectSet) : Nat :=
  maskOf [d.printReg, d.patchReg, d.noPatch, d.noGum, d.timing, d.unverified, d.splice, d.inspectReject, d.holdDivert]

def CauseSet.mask (x : CauseSet) : Nat := maskOf [x.operator, x.encoder, x.backlog, x.satellite, x.register]

/-- The halt causes a mask names; bits with no member are ignored (R203). -/
def causeSetOf (n : Nat) : CauseSet := ⟨n.testBit 0, n.testBit 1, n.testBit 2, n.testBit 3, n.testBit 4⟩

def NoticeKinds.mask (k : NoticeKinds) : Nat :=
  maskOf [k.blankAtCamera, k.changeover, k.profileRetired, k.batchClosed, k.backlog, k.batchLost, k.halt, k.runState,
    k.register, k.satellite, k.trackFlushed]

/-- The notice kinds a mask names; bits with no subscribable kind are ignored (R198). -/
def noticeKindsOf (n : Nat) : NoticeKinds :=
  ⟨n.testBit 0, n.testBit 1, n.testBit 2, n.testBit 3, n.testBit 4, n.testBit 5, n.testBit 6, n.testBit 7, n.testBit 8,
   n.testBit 9, n.testBit 10⟩

/-! ## Profile sections (R17 to R19, R206) -/

/-- The seven profile sections, in the order of R20. -/
inductive ProfileSection where
  | header | print | patch
  | gum (v : Fin 4)
  deriving DecidableEq, Repr

def ProfileSection.code : ProfileSection → Nat
  | .header => 0
  | .print => 1
  | .patch => 2
  | .gum v => 3 + v.val

/-- The section a profile section code names. -/
def profileSectionOf (n : Nat) : Option ProfileSection :=
  match n with
  | 0 => some .header
  | 1 => some .print
  | 2 => some .patch
  | k + 3 => if h : k < 4 then some (.gum ⟨k, h⟩) else none

/-- The checks of R17 over the raw fields of a HEADER content. -/
def headerChecks (c : List Byte) : Bool :=
  decide (10 ≤ u16At c 4) && decide (u16At c 4 ≤ 50000) && decide (u16At c 6 ≤ 5000) && decide (u8At c 8 < 64)
    && decide (u8At c 9 ≤ 1) && decide (u8At c 10 ≤ 1) && decide (u8At c 11 < 16) && decide (u8At c 12 ≤ 1)
    && !(u8At c 10 == 0 && !(u8At c 11 == 0))

/-- The HEADER a 13-byte content holds (R206), or none where it fails its check. -/
def headerOf (c : List Byte) : Option Header :=
  if headerChecks c then
    some
      { order := u32At c 0, batchTarget := u16At c 4, overrun := u16At c 6, rejects := rejectSetOf (u8At c 8)
        policy := if u8At c 9 = 0 then .pass else .reject
        cameraUse := flagOfCode (u8At c 10), expected := sourceSetOf (u8At c 11), haltOnLoss := flagOfCode (u8At c 12) }
  else none

/-- The register-field checks of R18. -/
def windowFits (pitch e w t : Nat) : Bool :=
  decide (1 ≤ w) && decide (w ≤ pitch / 4) && decide (t ≤ w) && decide (w ≤ e) && decide (e + w + 1 ≤ pitch)

/-- R18 for a PRINT section. -/
def PrintSection.fits (pitch : Nat) (x : PrintSection) : Bool := windowFits pitch x.e x.w x.t

/-- R18 for a PATCH section. -/
def PatchSection.fits (pitch : Nat) (x : PatchSection) : Bool := decide (x.knife < pitch) && windowFits pitch x.e x.w x.t

/-- Each segment has on < off < P, and each after the first begins beyond `floor`, the off angle before it (R19). -/
def segmentsFrom (pitch : Nat) (floor : Option Nat) : List Segment → Bool
  | [] => true
  | x :: xs =>
    (match floor with
      | none => true
      | some f => decide (f < x.onAngle))
    && decide (x.onAngle < x.offAngle) && decide (x.offAngle < pitch) && segmentsFrom pitch (some x.offAngle) xs

/-- R19 for a GUM section. -/
def gumFits (pitch : Nat) (xs : List Segment) : Bool := decide (xs.length ≤ 4) && segmentsFrom pitch none xs

/-- The PRINT section a 6-byte content holds. -/
def printOf (c : List Byte) : PrintSection := ⟨u16At c 0, u16At c 2, u16At c 4⟩

/-- The PATCH section an 8-byte content holds. -/
def patchOf (c : List Byte) : PatchSection := ⟨u16At c 0, u16At c 2, u16At c 4, u16At c 6⟩

/-- `k` segments laid out from index `i` (R206). -/
def segmentsAt (c : List Byte) : Nat → Nat → List Segment
  | 0, _ => []
  | k + 1, i => ⟨u16At c i, u16At c (i + 2)⟩ :: segmentsAt c k (i + 4)

/-- The segments of a GUM content: the count, then the segments. -/
def gumOf (c : List Byte) : List Segment := segmentsAt c (u8At c 0) 1

/-- The pitch the profile and angle checks use: the written P, or 16,000 while SHAFT is unwritten (R20, R180). -/
def MachineConfig.checkPitch (c : MachineConfig) : Nat := if c.written[0] then c.shaft.pitch else 16000

/-- The content length of a section's layout (R206); a GUM section's follows its count byte. -/
def ProfileSection.length (x : ProfileSection) (c : List Byte) : Nat :=
  match x with
  | .header => 13
  | .print => 6
  | .patch => 8
  | .gum _ => 1 + 4 * u8At c 0

def headerBytes (h : Header) : List Byte :=
  serialBytes h.order ++ bytes2 h.batchTarget ++ bytes2 h.overrun ++ byteOf h.rejects.mask ++ byteOf h.policy.code
    ++ flagByte h.cameraUse ++ byteOf h.expected.mask ++ flagByte h.haltOnLoss

def printBytes (x : PrintSection) : List Byte := bytes2 x.e ++ bytes2 x.w ++ bytes2 x.t

def patchBytes (x : PatchSection) : List Byte := bytes2 x.knife ++ bytes2 x.e ++ bytes2 x.w ++ bytes2 x.t

def segmentBytes (xs : List Segment) : List Byte := xs.flatMap fun x => bytes2 x.onAngle ++ bytes2 x.offAngle

def gumBytes (xs : List Segment) : List Byte := byteOf xs.length ++ segmentBytes xs

/-- The content of a section of a profile, if present (R26). -/
def Profile.sectionBytes (p : Profile) : ProfileSection → Option (List Byte)
  | .header => some (headerBytes p.header)
  | .print => some (printBytes p.print)
  | .patch => p.patch.map patchBytes
  | .gum v => p.gum[v.val].map gumBytes

/-- A section in the canonical image: a presence byte 0, or 1 and the content (R206). -/
def presentBytes : Option (List Byte) → List Byte
  | none => [0]
  | some c => 1 :: c

/-- The canonical image of a profile (R206). -/
def Profile.image (p : Profile) : List Byte :=
  headerBytes p.header ++ printBytes p.print ++ presentBytes (p.patch.map patchBytes)
    ++ presentBytes (p.gum[0].map gumBytes) ++ presentBytes (p.gum[1].map gumBytes)
    ++ presentBytes (p.gum[2].map gumBytes) ++ presentBytes (p.gum[3].map gumBytes)

/-! ## The signature (R27) -/

/-- One bit of the CRC: the feedback is the register's top bit exclusive-ored with the data bit. -/
def crcBit (register : Half) (bit : Bool) : Half :=
  if (register.msb ^^ bit) then (register <<< 1) ^^^ 0x1021#16 else register <<< 1

/-- One byte of the CRC, most significant bit first. -/
def crcByte (register : Half) (b : Byte) : Half :=
  [7, 6, 5, 4, 3, 2, 1, 0].foldl (fun r i => crcBit r (b.getLsbD i)) register

/-- The CRC-16 of R27. -/
def crc16 (bytes : List Byte) : Half := bytes.foldl crcByte 0xFFFF#16

/-! ## Configuration sections (R178 to R183, R207) -/

/-- The content length of a configuration section's layout (R207). -/
def ConfigSection.length : ConfigSection → Nat
  | .shaft => 7
  | .stations => 8
  | .angles => 10
  | .channels => 46
  | .register => 4
  | .sat _ => 9

/-- The number, from 1, of the first false check. -/
def firstFailing : List Bool → Option Nat
  | [] => none
  | b :: bs => if b then (firstFailing bs).map (· + 1) else some 1

/-- The field checks of the CHANNELS section's valve entry at index `i` (R181). -/
def valveChecks (c : List Byte) (i : Nat) : List Bool :=
  [decide (u16At c i ≤ 20000), decide (u16At c (i + 2) ≤ 20000), decide (1 ≤ u16At c (i + 4)) && decide (u16At c (i + 4) ≤ 500),
   decide (u8At c (i + 6) ≤ 1)]

/-- The field checks of the CHANNELS section's pulse entry at index `i` (R181). -/
def pulseChecks (c : List Byte) (i : Nat) : List Bool :=
  [decide (u16At c i ≤ 20000), decide (10 ≤ u16At c (i + 2)) && decide (u16At c (i + 2) ≤ 50000), decide (u8At c (i + 4) ≤ 1)]

/-- The field checks of a section's content, in field order (R178 to R183); `pitch` bounds the angles (R180). -/
def ConfigSection.checks (x : ConfigSection) (pitch : Nat) (c : List Byte) : List Bool :=
  match x with
  | .shaft =>
    [decide (1000 ≤ u16At c 0) && decide (u16At c 0 ≤ 16000), decide (u8At c 2 ≤ 1), decide (1 ≤ u16At c 3),
     decide (1 ≤ u16At c 5) && decide (u16At c 5 ≤ 1000)]
  | .stations => [0, 1, 2, 3, 4, 5, 6, 7].map fun i => decide (2 ≤ u8At c i) && decide (u8At c i ≤ 31)
  | .angles => [0, 2, 4, 6, 8].map fun i => decide (u16At c i < pitch)
  | .channels =>
    valveChecks c 0 ++ valveChecks c 7 ++ valveChecks c 14 ++ valveChecks c 21 ++ pulseChecks c 28 ++ pulseChecks c 33
      ++ pulseChecks c 38 ++ [decide (u16At c 43 ≤ 20000), decide (u8At c 45 ≤ 1)]
  | .register =>
    [decide (1 ≤ u16At c 0) && decide (u16At c 0 ≤ 500), decide (1 ≤ u16At c 2) && decide (u16At c 2 ≤ 500)]
  | .sat _ =>
    [decide (u8At c 0 ≤ 127), true, u8At c 2 == 1 || u8At c 2 == 2 || u8At c 2 == 4 || u8At c 2 == 8, decide (u8At c 3 ≤ 1),
     true, decide (1 ≤ u8At c 6), decide (u8At c 7 ≤ 3), decide (u8At c 8 ≤ 1)]

def shaftConfigOf (c : List Byte) : ShaftConfig :=
  ⟨u16At c 0, if u8At c 2 = 0 then .normal else .inverted, u16At c 3, u16At c 5⟩

def stationConfigOf (c : List Byte) : StationConfig :=
  ⟨u8At c 0, ⟨#[u8At c 1, u8At c 2, u8At c 3, u8At c 4], rfl⟩, u8At c 5, u8At c 6, u8At c 7⟩

def angleConfigOf (c : List Byte) : AngleConfig := ⟨u16At c 0, u16At c 2, u16At c 4, u16At c 6, u16At c 8⟩

def valveConfigAt (c : List Byte) (i : Nat) : ValveConfig :=
  ⟨u16At c i, u16At c (i + 2), u16At c (i + 4), flagOfCode (u8At c (i + 6))⟩

def pulseConfigAt (c : List Byte) (i : Nat) : PulseConfig := ⟨u16At c i, u16At c (i + 2), flagOfCode (u8At c (i + 4))⟩

def channelConfigOf (c : List Byte) : ChannelConfig where
  valves := ⟨#[valveConfigAt c 0, valveConfigAt c 7, valveConfigAt c 14, valveConfigAt c 21], rfl⟩
  patch := pulseConfigAt c 28
  camera := pulseConfigAt c 33
  kick := pulseConfigAt c 38
  gateLead := u16At c 43
  gateEnable := flagOfCode (u8At c 45)

def registerConfigOf (c : List Byte) : RegisterConfig := ⟨u16At c 0, u16At c 2⟩

def satConfigOf (c : List Byte) : SatConfig where
  address := u8At c 0
  register := u8At c 1
  divider := u8At c 2
  sense := if u8At c 3 = 0 then .below else .above
  threshold := u16At c 4
  dwell := u8At c 6
  consequence :=
    match u8At c 7 with
    | 0 => .notice
    | 1 => .hold
    | 2 => .patchInhibit
    | _ => .gumInhibit
  enable := flagOfCode (u8At c 8)

/-- The section takes the content and its written mark becomes YES (R184). -/
def MachineConfig.write (m : MachineConfig) (x : ConfigSection) (c : List Byte) : MachineConfig :=
  let marked := { m with written := m.written.set x.index.val true }
  match x with
  | .shaft => { marked with shaft := shaftConfigOf c }
  | .stations => { marked with stations := stationConfigOf c }
  | .angles => { marked with angles := angleConfigOf c }
  | .channels => { marked with channels := channelConfigOf c }
  | .register => { marked with register := registerConfigOf c }
  | .sat n => { marked with sats := marked.sats.set n.val (satConfigOf c) }

def valveConfigBytes (v : ValveConfig) : List Byte :=
  bytes2 v.openLead ++ bytes2 v.closeLead ++ bytes2 v.minOn ++ flagByte v.enable

def pulseConfigBytes (p : PulseConfig) : List Byte := bytes2 p.lead ++ bytes2 p.width ++ flagByte p.enable

def satConfigBytes (x : SatConfig) : List Byte :=
  byteOf x.address ++ byteOf x.register ++ byteOf x.divider ++ byteOf x.sense.code ++ bytes2 x.threshold ++ byteOf x.dwell
    ++ byteOf x.consequence.code ++ flagByte x.enable

/-- The content of a configuration section in the layout of R207 (R186). -/
def MachineConfig.sectionBytes (m : MachineConfig) : ConfigSection → List Byte
  | .shaft => bytes2 m.shaft.pitch ++ byteOf m.shaft.sense.code ++ bytes2 m.shaft.creep ++ bytes2 m.shaft.restDwell
  | .stations =>
    byteOf m.stations.patch ++ byteOf m.stations.gum[0] ++ byteOf m.stations.gum[1] ++ byteOf m.stations.gum[2]
      ++ byteOf m.stations.gum[3] ++ byteOf m.stations.camera ++ byteOf m.stations.gate ++ byteOf m.stations.delivery
  | .angles =>
    bytes2 m.angles.webSample ++ bytes2 m.angles.camera ++ bytes2 m.angles.gate ++ bytes2 m.angles.count
      ++ bytes2 m.angles.kick
  | .channels =>
    valveConfigBytes m.channels.valves[0] ++ valveConfigBytes m.channels.valves[1] ++ valveConfigBytes m.channels.valves[2]
      ++ valveConfigBytes m.channels.valves[3] ++ pulseConfigBytes m.channels.patch ++ pulseConfigBytes m.channels.camera
      ++ pulseConfigBytes m.channels.kick ++ bytes2 m.channels.gateLead ++ flagByte m.channels.gateEnable
  | .register => bytes2 m.register.printMax ++ bytes2 m.register.patchMax
  | .sat n => satConfigBytes m.sats[n.val]

/-- All thirteen sections in the order of R177. -/
def configSections : List ConfigSection :=
  [.shaft, .stations, .angles, .channels, .register, .sat 0, .sat 1, .sat 2, .sat 3, .sat 4, .sat 5, .sat 6, .sat 7]

/-- The first unwritten section in the order of R177. -/
def MachineConfig.firstUnwritten (m : MachineConfig) : Option ConfigSection :=
  configSections.find? fun x => !m.written[x.index.val]

end Sys2Proof.Machine
end

