-- ==== Sys2Proof/Machine/ProfileStore.lean ====
section
/-! DEFINITION. The profile store's operations that other blocks call (chapter 2): the fit check, the take of a changeover, the
retirement check, splice seen, the return of the slots at RUN_RESET. -/

namespace Sys2Proof.Machine

/-- Replace one slot. -/
def Profiles.setSlot (p : Profiles) (i : Fin 4) (x : ProfileSlot) : Profiles := { p with slots := p.slots.set i.val x }

/-- One slot. -/
def Profiles.slot (p : Profiles) (i : Fin 4) : ProfileSlot := p.slots[i.val]

/-- A slot keeps its content and takes a state. -/
def Profiles.setState (p : Profiles) (i : Fin 4) (x : SlotState) : Profiles := p.setSlot i { p.slot i with state := x }

/-- Whether an optional GUM section passes R19. -/
def gumSectionFits (pitch : Nat) : Option (List Segment) → Bool
  | none => true
  | some xs => gumFits pitch xs

/-- The fit check of R20: the first section that fails R18 or R19 against the pitch. -/
def Profile.firstUnfit (p : Profile) (pitch : Nat) : Option ProfileSection :=
  if !p.print.fits pitch then some .print
  else if !(match p.patch with
      | none => true
      | some x => x.fits pitch) then some .patch
  else ([0, 1, 2, 3] : List (Fin 4)).findSome? fun v =>
    if gumSectionFits pitch p.gum[v.val] then none else some (.gum v)

/-- The fit check of a slot; an EMPTY slot has nothing to fail it. -/
def Profiles.firstUnfit (p : Profiles) (pitch : Nat) (i : Fin 4) : Option ProfileSection :=
  match p.contentOf i with
  | none => none
  | some c => c.firstUnfit pitch

/-- Whether a trigger is met at the creation of blank `n` (R30). -/
def Trigger.met (t : Trigger) (n : Serial) : Bool :=
  match t with
  | .next => true
  | .serial k => n == k
  | .splice seen => seen

/-- Some record or the open batch references slot `i` (R34). -/
def State.references (s : State) (i : Fin 4) : Bool :=
  s.track.records.any (fun b => b.slot == i) ||
    match s.batch.current.body.order with
    | none => false
    | some o => o.slot == i

/-- The slot in state RETIRING, if any (R21). -/
def Profiles.retiring (p : Profiles) : Option (Fin 4) :=
  [0, 1, 2, 3].find? fun i : Fin 4 => (p.slot i).state == .retiring

/-- The retirement check (R34): a RETIRING slot that nothing references becomes READY, with its PROFILE_RETIRED notice. -/
def retireCheck (s : State) : State :=
  match s.profiles.retiring with
  | none => s
  | some i =>
    if s.references i then s
    else post (.profileRetired i (s.profiles.orderOf i)) { s with profiles := s.profiles.setState i .ready }

/-- The changeover is taken to `arm.slot` at blank `n` (R33, steps 1 to 4). -/
def takeChangeover (arm : ChangeoverArm) (n : Serial) (s : State) : State :=
  let retired :=
    match s.profiles.active with
    | none => s.profiles
    | some a => s.profiles.setState a .retiring
  let taken : Profiles := { retired.setState arm.slot .active with arm := none }
  retireCheck (post (.changeover arm.slot (taken.orderOf arm.slot) n) { s with profiles := taken })

/-- R33: the store takes an armed changeover whose trigger is met for blank `n`. -/
def changeoverAt (n : Serial) (s : State) : State :=
  match s.profiles.arm with
  | none => s
  | some arm => if arm.trigger.met n then takeChangeover arm n s else s

/-- A marking of SPLICE is handed to the profile store (R31). -/
def markSpliceSeen (s : State) : State :=
  match s.profiles.arm with
  | some ⟨slot, .splice false⟩ => { s with profiles := { s.profiles with arm := some ⟨slot, .splice true⟩ } }
  | _ => s

/-- The state a slot takes at RUN_RESET (R36). -/
def SlotState.afterRunReset : SlotState → SlotState
  | .empty => .empty
  | .ready => .ready
  | .active => .ready
  | .staged => .ready
  | .retiring => .ready

/-- R36: ACTIVE, STAGED and RETIRING slots return to READY and the arm is cleared; contents and staging area are kept. -/
def Profiles.runReset (p : Profiles) : Profiles :=
  { p with slots := mapVector (fun x => { x with state := x.state.afterRunReset }) p.slots, arm := none }

end Sys2Proof.Machine
end

