-- ==== Sys2Proof/Machine/Targets.lean ====
section
/-! DEFINITION. The action scheduler's timed points, targets and arming (sections 4.1 to 4.3). -/

namespace Sys2Proof.Machine

/-! ## The 42 slots (R57) -/

/-- The place of a point's slot: the table's order, valves by valve and segment. -/
def pointIndex : TimedPoint → Fin 42
  | .webSample => 0
  | .printOpen => 1
  | .printClose => 2
  | .patchKnife => 3
  | .patchOpen => 4
  | .patchClose => 5
  | .valveOn v k => ⟨6 + 4 * v.val + k.val, by omega⟩
  | .valveOff v k => ⟨22 + 4 * v.val + k.val, by omega⟩
  | .camera => 38
  | .gate => 39
  | .count => 40
  | .kick => 41

/-- The four segments of a valve's ON or OFF points. -/
def segmentPoints (f : Fin 4 → Fin 4 → TimedPoint) : List TimedPoint :=
  [f 0 0, f 0 1, f 0 2, f 0 3, f 1 0, f 1 1, f 1 2, f 1 3, f 2 0, f 2 1, f 2 2, f 2 3, f 3 0, f 3 1, f 3 2, f 3 3]

/-- All 42 points in the order of `pointIndex`. -/
def allPoints : List TimedPoint :=
  [.webSample, .printOpen, .printClose, .patchKnife, .patchOpen, .patchClose] ++ segmentPoints .valveOn
    ++ segmentPoints .valveOff ++ [.camera, .gate, .count, .kick]

/-- The action slot of a point. -/
def Sched.slot (x : Sched) (pt : TimedPoint) : ActionSlot := x.slots[(pointIndex pt).val]

/-- Replace the action slot of a point. -/
def Sched.setSlot (x : Sched) (pt : TimedPoint) (a : ActionSlot) : Sched :=
  { x with slots := x.slots.set (pointIndex pt).val a }

/-- The action slot of a point. -/
def State.slot (s : State) (pt : TimedPoint) : ActionSlot := s.sched.slot pt

/-- Replace the action slot of a point. -/
def State.setSlot (s : State) (pt : TimedPoint) (a : ActionSlot) : State := { s with sched := s.sched.setSlot pt a }

/-- The station position d of a point (R57). -/
def stationOf (c : MachineConfig) : TimedPoint → Nat
  | .webSample => 0
  | .printOpen => 0
  | .printClose => 0
  | .patchKnife => c.stations.patch
  | .patchOpen => c.stations.patch
  | .patchClose => c.stations.patch
  | .valveOn v _ => c.stations.gum[v.val]
  | .valveOff v _ => c.stations.gum[v.val]
  | .camera => c.stations.camera
  | .gate => c.stations.gate
  | .count => c.stations.delivery
  | .kick => c.stations.delivery

/-- Segment `k` of valve `v`'s GUM section (R59). -/
def Profile.segment (p : Profile) (v k : Fin 4) : Option Segment :=
  match p.gum[v.val] with
  | none => none
  | some xs => xs[k.val]?

/-- The nominal angle of a point (R57): from the blank's profile or the configuration; none is void (R59). -/
def nominalAngle (c : MachineConfig) (profile : Option Profile) : TimedPoint → Option Nat
  | .webSample => some c.angles.webSample
  | .printOpen => profile.map fun p => p.print.e - p.print.w
  | .printClose => profile.map fun p => p.print.e + p.print.w
  | .patchKnife => profile.bind fun p => p.patch.map fun x => x.knife
  | .patchOpen => profile.bind fun p => p.patch.map fun x => x.e - x.w
  | .patchClose => profile.bind fun p => p.patch.map fun x => x.e + x.w
  | .valveOn v k => profile.bind fun p => (p.segment v k).map Segment.onAngle
  | .valveOff v k => profile.bind fun p => (p.segment v k).map Segment.offAngle
  | .camera => some c.angles.camera
  | .gate => some c.angles.gate
  | .count => some c.angles.count
  | .kick => some c.angles.kick

/-- The on angle a valve OFF slot also holds (R58). -/
def heldOnAngle (profile : Option Profile) : TimedPoint → Option Nat
  | .valveOff v k => profile.bind fun p => (p.segment v k).map Segment.onAngle
  | _ => none

/-- The lead of a compensated point, and none for an uncompensated one (R57, R60). -/
def leadOf (c : MachineConfig) : TimedPoint → Option Nat
  | .webSample => none
  | .printOpen => none
  | .printClose => none
  | .patchKnife => some c.channels.patch.lead
  | .patchOpen => none
  | .patchClose => none
  | .valveOn v _ => some c.channels.valves[v.val].openLead
  | .valveOff v _ => some c.channels.valves[v.val].closeLead
  | .camera => some c.channels.camera.lead
  | .gate => some c.channels.gateLead
  | .count => none
  | .kick => some c.channels.kick.lead

/-! ## The compensated target (R60 to R63) -/

/-- The advance A = (S × L + 8,000) div 16,000 (R60). -/
def advanceOf (speed lead : Nat) : Nat := (speed * lead + 8000) / 16000

/-- Whether the lower clamp of R61 engages. -/
def belowClamp (pitch : Nat) (r : Int) : Bool := decide (r < -((pitch / 2 : Nat) : Int))

/-- Whether the upper clamp of R61 engages. -/
def aboveClamp (pitch : Nat) (r : Int) : Bool := decide ((pitch : Int) - 1 < r)

/-- The clamped relative angle (R61). -/
def clampRelative (pitch : Nat) (r : Int) : Int :=
  if belowClamp pitch r then -((pitch / 2 : Nat) : Int) else if aboveClamp pitch r then (pitch : Int) - 1 else r

/-- The open instance of segment `k` of valve `v` for cycle `c` (R80). -/
def Sched.instanceOf (x : Sched) (v k : Fin 4) (c : Serial) : Option SegmentInstance :=
  x.segments[v.val].find? fun i => i.segment == k && i.cycle == c

/-- The floor of a valve OFF, relative to the start of its cycle (R62): behind the ON target of the open instance, or behind the
ON's relative angle of this moment by R60 and R61. DESIGN CHOICE (notes/assumptions/30.md): a clamp that engages on that ON angle
notes no TIMING for the OFF's slot. -/
def offFloor (s : State) (v k : Fin 4) (a : ActionSlot) : Int :=
  let minOn : Int := s.config.channels.valves[v.val].minOn
  match s.sched.instanceOf v k a.cycle with
  | some i => signedDistance s.pitch i.onTarget (cycleStart s.pitch a.cycle) + minOn
  | none =>
    let advance := advanceOf s.shaft.speed s.config.channels.valves[v.val].openLead
    clampRelative s.pitch ((a.onAngle.getD 0 : Int) - (advance : Int)) + minOn

/-- A target computation: the relative angle and whether a clamp engaged (R61). -/
structure Relative where
  angle : Int
  clamped : Bool
  deriving DecidableEq, Repr

/-- The clamps of R61 over a relative angle. -/
def clampedRelative (pitch : Nat) (r : Int) : Relative :=
  ⟨clampRelative pitch r, belowClamp pitch r || aboveClamp pitch r⟩

/-- R62: the lower clamp acts on the OFF's own relative angle `r`, the floor replaces the upper clamp's input, and the upper
clamp then applies (notes/assumptions/11.md). -/
def offRelative (pitch : Nat) (r floor : Int) : Relative :=
  let lower : Int := if belowClamp pitch r then -((pitch / 2 : Nat) : Int) else r
  let lifted := if lower < floor then floor else lower
  ⟨clampRelative pitch lifted, belowClamp pitch r || aboveClamp pitch lifted⟩

/-- The relative angle of an armed slot with nominal angle `a` (R60 to R63). -/
def relativeAngle (s : State) (pt : TimedPoint) (x : ActionSlot) (a : Nat) : Relative :=
  match leadOf s.config pt with
  | none => ⟨a, false⟩
  | some lead =>
    let r : Int := (a : Int) - (advanceOf s.shaft.speed lead : Int)
    match pt with
    | .patchKnife => clampedRelative s.pitch (r + s.reg.patch.value)
    | .valveOff v k => offRelative s.pitch r (offFloor s v k x)
    | _ => clampedRelative s.pitch r

/-- The slot of `pt` with the target `y`: one at or behind the position stands passed (R64, R68). -/
def State.aimed (s : State) (pt : TimedPoint) (y : Nat) : ActionSlot :=
  { s.slot pt with target := y, passed := atOrBeyond s.pitch s.shaft.position y }

/-- Compute the target of an armed slot (R59, R63); a clamp adds TIMING to its blank once per arming (R61). -/
def retarget (pt : TimedPoint) (s : State) : State :=
  let x := s.slot pt
  match x.angle with
  | none => s.setSlot pt (s.aimed pt (offsetPosition s.pitch (cycleStart s.pitch x.cycle) 0))
  | some a =>
    let r := relativeAngle s pt x a
    let target := offsetPosition s.pitch (cycleStart s.pitch x.cycle) r.angle
    if r.clamped && !x.clampNoted then
      addDefect x.serial .timing (s.setSlot pt { s.aimed pt target with clampNoted := true })
    else s.setSlot pt (s.aimed pt target)

/-! ## Arming (R64 to R67) -/

/-- Arm a slot for cycle `c` (R64): its blank is c − d, its angles are read from that blank's profile or the configuration, and
its target is computed. A target already passed is fired by the caller (`settle`, `firePoint`). -/
def armSlot (pt : TimedPoint) (c : Serial) (s : State) : State :=
  let n := c - BitVec.ofNat 32 (stationOf s.config pt)
  let profile := s.profileOf n
  retarget pt (s.setSlot pt
    { phase := .armed, cycle := c, serial := n, angle := nominalAngle s.config profile pt,
      onAngle := heldOnAngle profile pt, target := 0, clampNoted := false, passed := false })

/-- Whether a point's valve is disabled in the channel table (R59). -/
def valveDisabled (c : MachineConfig) : TimedPoint → Bool
  | .valveOn v _ => !c.channels.valves[v.val].enable
  | .valveOff v _ => !c.channels.valves[v.val].enable
  | _ => false

/-- The points armed at homing: all but the kick and the slots of disabled valves (R65). -/
def homingPoints (c : MachineConfig) : List TimedPoint :=
  allPoints.filter fun pt => !(pt == .kick) && !valveDisabled c pt

/-- R65: at the homing to cycle `c0` each slot at position d is armed for cycle c0 + d. -/
def armAtHoming (c0 : Serial) (s : State) : State :=
  (homingPoints s.config).foldl (fun s pt => armSlot pt (c0 + BitVec.ofNat 32 (stationOf s.config pt)) s) s

/-- The three points at position 0 (R67). -/
def positionZeroPoints : List TimedPoint := [.webSample, .printOpen, .printClose]

/-- R67: at the creation of blank `c` each WAITING slot is armed for cycle `c`. -/
def armWaiting (c : Serial) (s : State) : State :=
  positionZeroPoints.foldl (fun s pt => if (s.slot pt).phase = .waiting then armSlot pt c s else s) s

/-- Whether an armed slot's target stands passed (R64, R68, R70); in LIVE only (R71). -/
def State.due (s : State) (pt : TimedPoint) : Bool :=
  s.run.runState == .live && (s.slot pt).phase == .armed && (s.slot pt).passed

/-- R81: close every open segment of every valve. -/
def closeSegments (s : State) : State := { s with sched := { s.sched with segments := Vector.replicate 4 [] } }

/-- R82, R59: the output of an enabled valve shows whether its open segment set is not empty. -/
def valveLevel (s : State) (v : Fin 4) : Bool :=
  s.config.channels.valves[v.val].enable && !s.sched.segments[v.val].isEmpty

/-- R82: set the valve outputs after all the firings of one event. -/
def setValveOutputs (s : State) : State :=
  { s with sched := { s.sched with outputs :=
    { s.sched.outputs with gum := ⟨#[valveLevel s 0, valveLevel s 1, valveLevel s 2, valveLevel s 3], rfl⟩ } } }

/-- R85: when the run state leaves LIVE every slot becomes UNARMED, every segment closes and GUM0 to GUM3 are inactive. -/
def leaveLive (s : State) : State :=
  { s with sched :=
    { s.sched with
      slots := mapVector (fun x => { x with phase := .unarmed, clampNoted := false, passed := false }) s.sched.slots
      segments := Vector.replicate 4 []
      outputs := { s.sched.outputs with gum := Vector.replicate 4 false } } }

/-! ## Pulses (R83) -/

/-- Start a pulse: on an enabled channel the output is active until the firing moment plus the width (R83). -/
def startPulse (ch : PulseChannel) (s : State) : State :=
  match ch with
  | .patch =>
    if s.config.channels.patch.enable then
      { s with sched := { s.sched with
        patchPulse := some (s.time + s.config.channels.patch.width), outputs := { s.sched.outputs with patch := true } } }
    else s
  | .camera =>
    if s.config.channels.camera.enable then
      { s with sched := { s.sched with
        cameraPulse := some (s.time + s.config.channels.camera.width), outputs := { s.sched.outputs with camera := true } } }
    else s
  | .kick =>
    if s.config.channels.kick.enable then
      { s with sched := { s.sched with
        kickPulse := some (s.time + s.config.channels.kick.width), outputs := { s.sched.outputs with kick := true } } }
    else s

/-- The end time of a channel's pulse, if it is active. -/
def Sched.pulse (x : Sched) : PulseChannel → Option Nat
  | .patch => x.patchPulse
  | .camera => x.cameraPulse
  | .kick => x.kickPulse

/-- End a pulse: the output and the pulse state become inactive (R83). -/
def endPulse (ch : PulseChannel) (s : State) : State :=
  match ch with
  | .patch => { s with sched := { s.sched with patchPulse := none, outputs := { s.sched.outputs with patch := false } } }
  | .camera => { s with sched := { s.sched with cameraPulse := none, outputs := { s.sched.outputs with camera := false } } }
  | .kick => { s with sched := { s.sched with kickPulse := none, outputs := { s.sched.outputs with kick := false } } }

/-- Set the gate level (R76); the GATE output shows it when the channel is enabled (R84). -/
def setGateLevel (level : Bool) (s : State) : State :=
  { s with sched := { s.sched with
    gateLevel := level, outputs := { s.sched.outputs with gate := level && s.config.channels.gateEnable } } }

/-! ## The kick (R78, R79) -/

/-- The kick fires: the KICK pulse starts and the slot becomes UNARMED (R79). -/
def fireKick (s : State) : State :=
  startPulse .kick (s.setSlot .kick { s.slot .kick with phase := .unarmed, passed := false })

/-- R78: a close in LIVE at the count point of cycle `c` arms the kick; a target already passed fires at once. -/
def armKick (c : Serial) (s : State) : State :=
  if s.run.runState = .live then
    let armed := armSlot .kick c s
    if armed.due .kick then fireKick armed else armed
  else s

end Sys2Proof.Machine
end

