-- ==== Sys2Proof/Machine/Register.lean ====
section
/-! DEFINITION. The register monitor (chapter 5): windows, captures, judgements, the integrator, loss and recovery. -/

namespace Sys2Proof.Machine

/-- One channel. -/
def RegisterMonitor.get (r : RegisterMonitor) : RegChannel → Channel
  | .print => r.print
  | .patch => r.patch

/-- Replace one channel. -/
def RegisterMonitor.set (r : RegisterMonitor) (ch : RegChannel) (x : Channel) : RegisterMonitor :=
  match ch with
  | .print => { r with print := x }
  | .patch => { r with patch := x }

/-- One channel of the part. -/
def State.channel (s : State) (ch : RegChannel) : Channel := s.reg.get ch

/-- Replace one channel of the part. -/
def State.setChannel (s : State) (ch : RegChannel) (x : Channel) : State := { s with reg := s.reg.set ch x }

/-- The max correction of a channel (R182). -/
def RegisterConfig.maxOf (c : RegisterConfig) : RegChannel → Nat
  | .print => c.printMax
  | .patch => c.patchMax

/-! ## Windows and captures (R88 to R91) -/

/-- The expected angle, window and tolerance of a channel's section of a profile (R88). -/
def Profile.windowFields (p : Profile) : RegChannel → Option (Nat × Nat × Nat)
  | .print => some (p.print.e, p.print.w, p.print.t)
  | .patch => p.patch.map fun x => (x.e, x.w, x.t)

/-- R88: open a channel's window for blank `n` in cycle `c`, with the values of the blank's own section. -/
def openWindow (ch : RegChannel) (n c : Serial) (s : State) : State :=
  match (s.profileOf n).bind (fun p => p.windowFields ch) with
  | none => s
  | some (e, w, t) =>
    s.setChannel ch { s.channel ch with window := some ⟨n, e, w, t, c, none⟩ }

/-- Whether the position lies at or beyond the window's open target and behind its close target (R89). -/
def insideWindow (s : State) (w : WindowRecord) : Bool :=
  atOrBeyond s.pitch s.shaft.position (offsetPosition s.pitch (cycleStart s.pitch w.cycle) ((w.e : Int) - (w.w : Int)))
    && !atOrBeyond s.pitch s.shaft.position (offsetPosition s.pitch (cycleStart s.pitch w.cycle) ((w.e : Int) + (w.w : Int)))

/-- The angle of the position in a window's cycle (R89). -/
def captureAngle (s : State) (w : WindowRecord) : Nat :=
  forwardDistance s.pitch s.shaft.position (cycleStart s.pitch w.cycle)

/-- R89: a capture edge. -/
def captureEdge (ch : RegChannel) (s : State) : State :=
  match (s.channel ch).window with
  | none => s
  | some w =>
    if s.run.runState = .live ∧ w.capture = none ∧ s.shaft.lastDir = .forward ∧ insideWindow s w = true then
      s.setChannel ch { s.channel ch with window := some { w with capture := some (captureAngle s w) } }
    else s

/-! ## The integrator (R97) -/

/-- ε divided by 4, rounded toward zero. -/
def quarter (eps : Int) : Int := if 0 ≤ eps then eps / 4 else -((-eps) / 4)

/-- A clamp to ±m ([INTRO:CONV]). -/
def clampTo (m : Nat) (v : Int) : Int := if (m : Int) < v then m else if v < -(m : Int) then -(m : Int) else v

/-- R97: the channel's value is integrated with ε. -/
def integrate (max : Nat) (eps : Int) (x : Channel) : Channel := { x with value := clampTo max (x.value - quarter eps) }

/-! ## Loss and recovery (R99 to R101) -/

/-- R100, R101: the REGISTER notice of a channel for blank `n`, with the channel's new state and value. -/
def postRegister (ch : RegChannel) (n : Serial) (s : State) : State :=
  post (.register ch (s.channel ch).state n (s.channel ch).value) s

/-- Whether the HEADER of a blank's profile halts on register loss (R100). -/
def State.haltsOnLoss (s : State) (n : Serial) : Bool :=
  match s.profileOf n with
  | none => false
  | some p => p.header.haltOnLoss

/-- R99, R100: a bad judgement of blank `n` is counted. -/
def countBad (ch : RegChannel) (n : Serial) (s : State) : State :=
  let x := s.channel ch
  let counted := { x with bad := countUpTo 255 x.bad, good := 0 }
  if counted.bad = 3 ∧ x.state = .tracking then
    let lost := postRegister ch n (s.setChannel ch { counted with state := .lost })
    if s.haltsOnLoss n then handCause .register lost else lost
  else s.setChannel ch counted

/-- R99, R101: a good judgement of blank `n` is counted. -/
def countGood (ch : RegChannel) (n : Serial) (s : State) : State :=
  let x := s.channel ch
  let counted := { x with good := countUpTo 255 x.good, bad := 0 }
  if counted.good = 2 ∧ x.state = .lost then
    postRegister ch n (s.setChannel ch { counted with state := .tracking })
  else s.setChannel ch counted

/-! ## Judging a blank (R94 to R96) -/

/-- The defect a captured edge out of tolerance adds (R94, R95). -/
def errorDefect : RegChannel → Defect
  | .print => .printReg
  | .patch => .patchReg

/-- The defect a missing edge adds (R94, R95). -/
def missingDefect : RegChannel → Defect
  | .print => .printReg
  | .patch => .noPatch

/-- Write a blank's register error (R39). -/
def Blank.setError (b : Blank) (ch : RegChannel) (e : Int) : Blank :=
  match ch with
  | .print => b.setPrintError e
  | .patch => b.setPatchError e

/-- A judgement with a capture (R94, R95): the error is stored, the value integrated, and the judgement counted good or bad. -/
def judgeCapture (ch : RegChannel) (w : WindowRecord) (angle : Nat) (s : State) : State :=
  let eps : Int := (angle : Int) - (w.e : Int)
  let stored := s.updateBlank w.serial fun b => b.setError ch eps
  let moved := stored.setChannel ch
    { integrate (s.config.register.maxOf ch) eps (stored.channel ch) with last := .error w.serial eps }
  if w.t < eps.natAbs then countBad ch w.serial (addDefect w.serial (errorDefect ch) moved)
  else countGood ch w.serial moved

/-- A judgement without a capture (R94, R95): the defect joins, the value is left alone, and the judgement is bad. -/
def judgeMissing (ch : RegChannel) (w : WindowRecord) (s : State) : State :=
  let marked := addDefect w.serial (missingDefect ch) s
  countBad ch w.serial (marked.setChannel ch { marked.channel ch with last := .missing w.serial })

/-- Judge a window result that is not discarded (R94, R95). -/
def judge (ch : RegChannel) (w : WindowRecord) (s : State) : State :=
  match w.capture with
  | some angle => judgeCapture ch w angle s
  | none => judgeMissing ch w s

/-- R94: a PRINT window result is judged by the blank's presence; PENDING has no judgement here (R96). -/
def judgePrint (w : WindowRecord) (s : State) : State :=
  match s.track.find w.serial with
  | none => s
  | some b => if b.presence = .present then judge .print w s else s

/-- R91, R96: a closed PRINT window is judged at once, or held waiting while the blank's presence is PENDING. -/
def resolvePrint (w : WindowRecord) (s : State) : State :=
  match s.track.find w.serial with
  | none => s
  | some b => if b.presence = .pending then { s with reg := { s.reg with waiting := some w } } else judgePrint w s

/-- R96: the presence of blank `n` has been set; the waiting judgement of that blank is judged now. -/
def resolveWaiting (n : Serial) (s : State) : State :=
  match s.reg.waiting with
  | none => s
  | some w => if w.serial = n then judgePrint w { s with reg := { s.reg with waiting := none } } else s

/-! ## The knife outcome list (R92, R93) -/

/-- R92: a knife outcome for blank `n` joins the list, after every entry older than n − 1 is removed. DESIGN CHOICE
(notes/assumptions/32.md): it joins at the end, so that the older entry stands first. -/
def handKnife (n : Serial) (o : KnifeOutcome) (s : State) : State :=
  { s with reg := { s.reg with
    knives := s.reg.knives.filter (fun k => !serialNewer (n - 1) k.serial) ++ [⟨n, o⟩] } }

/-- R93: whether the knife outcome of blank `n` is FIRED. -/
def RegisterMonitor.knifeFired (r : RegisterMonitor) (n : Serial) : Bool :=
  match r.knives.find? (fun k => k.serial == n) with
  | none => false
  | some k => k.outcome == .fired

/-- R93: the entry of blank `n` is removed. -/
def dropKnife (n : Serial) (s : State) : State :=
  { s with reg := { s.reg with knives := s.reg.knives.filter fun k => !(k.serial == n) } }

/-- R93, R95: a closed PATCH window is judged by its knife outcome. -/
def resolvePatch (w : WindowRecord) (s : State) : State :=
  if s.reg.knifeFired w.serial then judge .patch w (dropKnife w.serial s) else dropKnife w.serial s

/-- R91: close a channel's window and resolve its result; a CLOSED window has none. -/
def closeWindow (ch : RegChannel) (s : State) : State :=
  match (s.channel ch).window with
  | none => s
  | some w =>
    let closed := s.setChannel ch { s.channel ch with window := none }
    match ch with
    | .print => resolvePrint w closed
    | .patch => resolvePatch w closed

/-- R104: on leaving LIVE at an encoder fault the work in progress is abandoned, unjudged. -/
def RegisterMonitor.abandon (r : RegisterMonitor) : RegisterMonitor where
  print := { r.print with window := none }
  patch := { r.patch with window := none }
  waiting := none
  knives := []

end Sys2Proof.Machine
end

