-- ==== Sys2Proof/Machine/Batch.lean ====
section
/-! DEFINITION. The batch counter's operations (chapter 7): close attempts, counting, rejects, RUN_RESET. -/

namespace Sys2Proof.Machine

/-- Closed records the batch queue holds at most (R137). -/
def batchQueueLimit : Nat := 8

/-- The limit of the good, reject and stray counts (R126). -/
def countLimit : Nat := 2 ^ 32 - 1

/-- The open batch. -/
def State.openBatch (s : State) : OpenBatch := s.batch.current

/-- Replace the open batch's fields. -/
def State.setOpenBatch (s : State) (b : OpenBatch) : State := { s with batch := { s.batch with current := b } }

/-- The close reason a close pending carries into the record (R131). -/
def ClosePending.reason : ClosePending → CloseReason
  | .none => .command
  | .command => .command
  | .target => .target
  | .changeover => .changeover

/-- R128, steps 1 to 4: the open batch joins the queue with `reason`, BATCH_CLOSED is posted, a new open batch is made with the
next number, and the retirement check runs. -/
def closeBatch (reason : CloseReason) (s : State) : State :=
  let closed : ClosedBatch := ⟨s.openBatch.body, reason⟩
  retireCheck (post (.batchClosed closed)
    { s with batch := ⟨OpenBatch.fresh (s.openBatch.body.number + 1), s.batch.queue ++ [closed]⟩ })

/-- The order number an open batch carries; a batch without one reads 0 (notes/assumptions/12.md). -/
def BatchBody.orderNumber (b : BatchBody) : Serial :=
  match b.order with
  | none => 0
  | some o => o.order

/-- R129: a close attempt that finds 8 records holds the batch, with one BACKLOG notice. -/
def holdBatch (why : ClosePending) (s : State) : State :=
  let b := s.openBatch
  if b.body.held then s
  else
    post (.backlog b.body.number b.body.orderNumber why b.body.good b.body.strays)
      (s.setOpenBatch ⟨{ b.body with held := true }, why⟩)

/-- R128, R129: a close attempt at the count point of cycle `c`, with its kick (R78). -/
def attemptClose (why : ClosePending) (c : Serial) (s : State) : State :=
  if s.batch.queue.length < batchQueueLimit then armKick c (closeBatch why.reason s) else holdBatch why s

/-- What a batch adopts from the slot of its first good blank (R127). -/
def adoptedOrder (s : State) (slot : Fin 4) : Option BatchOrder :=
  match s.profiles.contentOf slot with
  | none => none
  | some p => some ⟨slot, p.header.order, p.header.batchTarget, p.header.overrun⟩

/-- The open batch carries a slot other than `slot` (R131, R116). -/
def BatchBody.otherSlot (b : BatchBody) (slot : Fin 4) : Bool :=
  match b.order with
  | none => false
  | some o => !(o.slot == slot)

/-- The fields of a batch after blank `n` of `slot` is counted good (R133). -/
def BatchBody.countGood (b : BatchBody) (n : Serial) (adopted : Option BatchOrder) : BatchBody :=
  { b with
    good := countUpTo countLimit b.good
    order := match b.order with
      | some o => some o
      | none => adopted
    span := match b.span with
      | some x => some { x with last := n }
      | none => some ⟨n, n⟩ }

/-- The batch has reached its target (R133). -/
def BatchBody.targetMet (b : BatchBody) : Bool :=
  match b.order with
  | none => false
  | some o => decide (o.target ≤ b.good)

/-- The batch has run past its overrun (R134). -/
def BatchBody.overrunMet (b : BatchBody) : Bool :=
  b.held &&
    match b.order with
    | none => false
    | some o => decide (o.target + o.overrun ≤ b.good + b.strays)

/-- R134: a held batch at or past its overrun hands BACKLOG. -/
def checkOverrun (s : State) : State := if s.openBatch.body.overrunMet then handCause .backlog s else s

/-- R132: blank `n` is counted as a stray of the held batch. -/
def countStray (n : Serial) (s : State) : State :=
  let counted := s.updateBlank n fun b => b.setCounted .stray
  let b := s.openBatch
  counted.setOpenBatch { b with body := { b.body with strays := countUpTo countLimit b.body.strays, mixed := true } }

/-- R133: blank `n` of `slot` is counted good at the count point of cycle `c`; a batch at its target that is not held is closed. -/
def countGoodBlank (n : Serial) (slot : Fin 4) (c : Serial) (s : State) : State :=
  let marked := s.updateBlank n fun b => b.setCounted .good
  let b := s.openBatch
  let body := b.body.countGood n (adoptedOrder s slot)
  let counted := marked.setOpenBatch { b with body := body }
  if body.targetMet && !body.held then attemptClose .target c counted else counted

/-- R131, step 1: a pending close is attempted. -/
def attemptPending (c : Serial) (s : State) : State :=
  if s.openBatch.pending = .none then s else attemptClose s.openBatch.pending c s

/-- R131, step 2: a batch of another order is attempted with reason CHANGEOVER. -/
def attemptOrderChange (slot : Fin 4) (c : Serial) (s : State) : State :=
  if s.openBatch.body.otherSlot slot then attemptClose .changeover c s else s

/-- R131 to R134: a PASSED blank `n` of `slot` at the count point of cycle `c`. -/
def countPassed (n : Serial) (slot : Fin 4) (c : Serial) (s : State) : State :=
  let settled := attemptOrderChange slot c (attemptPending c s)
  checkOverrun
    (if settled.openBatch.body.otherSlot slot then countStray n settled else countGoodBlank n slot c settled)

/-- R131: the count point of cycle `c` acts on blank `n`. -/
def countBlank (n c : Serial) (s : State) : State :=
  match s.track.find n with
  | none => s
  | some b => if b.outcome = .passed then countPassed n b.slot c s else s

/-- R135: a diversion adds one to the open batch's reject count. -/
def countReject (s : State) : State :=
  let b := s.openBatch
  s.setOpenBatch { b with body := { b.body with rejects := countUpTo countLimit b.body.rejects } }

/-- What RUN_RESET does with the open batch (R143). -/
inductive BatchFate where
  | closed | lost | discarded
  deriving DecidableEq, Repr

/-- R143: the open batch's fate at RUN_RESET. -/
def Batches.fate (b : Batches) : BatchFate :=
  if b.current.body.good = 0 then .discarded
  else if b.queue.length < batchQueueLimit then .closed else .lost

/-- R143: the open batch is closed with reason RUN_RESET (no kick), or discarded, its number handed on. -/
def runResetBatch (s : State) : State :=
  match s.batch.fate with
  | .closed => closeBatch .runReset s
  | .lost => retireCheck (post (.batchLost s.openBatch.body) (s.setOpenBatch (OpenBatch.fresh s.openBatch.body.number)))
  | .discarded => retireCheck (s.setOpenBatch (OpenBatch.fresh s.openBatch.body.number))

end Sys2Proof.Machine
end

