-- ==== Sys2Proof/Machine/Gate.lean ====
section
/-! DEFINITION. The gate logic (chapter 6): the gate decision and the taking of a verdict. -/

namespace Sys2Proof.Machine

/-! ## The decision (R114 to R119) -/

/-- The sources 0 to 3. -/
def allSources : List (Fin 4) := [0, 1, 2, 3]

/-- R115, step 1: some expected source has no entry with late mark NO. -/
def unverified (expected : SourceSet) (verdicts : List VerdictEntry) : Bool :=
  allSources.any fun i => expected.has i && !verdicts.any fun v => v.source == i && !v.late

/-- R115, step 2: some entry holds REJECT. -/
def inspectionRejects (verdicts : List VerdictEntry) : Bool := verdicts.any fun v => v.result == .reject

/-- R116, R141: the batch queue holds 8 records and the open batch carries a slot other than the blank's. -/
def Batches.holdsAgainst (b : Batches) (slot : Fin 4) : Bool :=
  decide (batchQueueLimit ≤ b.queue.length) && b.current.body.otherSlot slot

/-- The defect set as R115 and R116 leave it. -/
def settledDefects (h : Header) (b : Blank) (batch : Batches) : DefectSet :=
  { b.defects with
    unverified := b.defects.unverified || unverified h.expected b.verdicts
    inspectReject := b.defects.inspectReject || inspectionRejects b.verdicts
    holdDivert := b.defects.holdDivert || batch.holdsAgainst b.slot }

/-- R117: whether a settled defect set diverts under a HEADER. -/
def diverts (h : Header) (d : DefectSet) : Bool :=
  d.splice || d.holdDivert || d.inspectReject || d.meets h.rejects || (d.unverified && h.policy == .reject)

/-- R117: the outcome of a PRESENT blank. -/
def outcomeOf (h : Header) (d : DefectSet) : GateOutcome := if diverts h d then .diverted else .passed

/-- R118, R119: a DIVERTED outcome is counted a reject of the open batch. -/
def recordOutcome (n : Serial) (d : DefectSet) (o : GateOutcome) (s : State) : State :=
  let written := s.updateBlank n fun b => { b with defects := d }.setOutcome o
  if o = .diverted then countReject (written.updateBlank n fun b => b.setCounted .reject) else written

/-- R114 to R119, R76: the gate decides blank `n`, and the gate level follows the outcome. A decided blank, and a presence
PENDING, which the gate never meets (section 6.5), are left as they are. -/
def decideGate (n : Serial) (s : State) : State :=
  match s.track.find n with
  | none => s
  | some b =>
    if b.outcome = .pending then
      match b.presence, s.profiles.contentOf b.slot with
      | .absent, _ => setGateLevel false (s.updateBlank n fun b => b.setOutcome .skipped)
      | .present, some p =>
        let d := settledDefects p.header b s.batch
        setGateLevel (outcomeOf p.header d == .diverted) (recordOutcome n d (outcomeOf p.header d) s)
      | _, _ => s
    else s

/-! ## Taking a verdict (R107 to R110) -/

/-- The answer of the verdict rules: the result, the reason, the stored mark and the verdict list afterwards. -/
structure VerdictOutcome where
  result : Result
  reason : Reason
  stored : Bool
  verdicts : List VerdictEntry
  deriving DecidableEq, Repr

/-- The entry of a source in a verdict list (R39: at most one). -/
def entryOf (verdicts : List VerdictEntry) (i : Fin 4) : Option VerdictEntry := verdicts.find? fun v => v.source == i

/-- R109: the source's entry keeps its place and takes REJECT and the new code. -/
def overrule (verdicts : List VerdictEntry) (i : Fin 4) (code : Byte) : List VerdictEntry :=
  verdicts.map fun v => if v.source = i then { v with result := .reject, code := code } else v

/-- R108: a verdict that finds the blank decided. -/
def lateVerdict (verdicts : List VerdictEntry) (i : Fin 4) (result : Judgement) (code : Byte) : VerdictOutcome :=
  match entryOf verdicts i with
  | none => ⟨.late, .decided, true, verdicts ++ [⟨i, result, code, true⟩]⟩
  | some _ => ⟨.late, .decided, false, verdicts⟩

/-- R109: a verdict that finds the blank undecided, its camera fired and the source expected. -/
def timelyVerdict (verdicts : List VerdictEntry) (i : Fin 4) (result : Judgement) (code : Byte) : VerdictOutcome :=
  match entryOf verdicts i with
  | none => ⟨.ok, .none, true, verdicts ++ [⟨i, result, code, false⟩]⟩
  | some v =>
    if v.result = .pass ∧ result = .reject then ⟨.ok, .none, true, overrule verdicts i code⟩
    else ⟨.refused, .duplicate, false, verdicts⟩

/-- R107, cases 4 to 8, for a found record whose profile expects `expected`. -/
def verdictOutcome (expected : SourceSet) (b : Blank) (i : Fin 4) (result : Judgement) (code : Byte) : VerdictOutcome :=
  if b.presence = .absent then ⟨.refused, .absent, false, b.verdicts⟩
  else if !expected.has i then ⟨.refused, .notExpected, false, b.verdicts⟩
  else if !b.cameraDone then ⟨.refused, .early, false, b.verdicts⟩
  else if b.outcome ≠ .pending then lateVerdict b.verdicts i result code
  else timelyVerdict b.verdicts i result code

/-- The expected inspection sources of a blank's profile (R107, case 5). -/
def State.expectedOf (s : State) (b : Blank) : SourceSet :=
  match s.profiles.contentOf b.slot with
  | none => ⟨false, false, false, false⟩
  | some p => p.header.expected

end Sys2Proof.Machine
end

