-- ==== Sys2Proof/Machine/Firing.lean ====
section
/-! DEFINITION. Passage and firing (sections 4.5 and 4.6): what each point does when it fires, and its re-arming. -/

namespace Sys2Proof.Machine

/-! ## Satellite inhibits (R156) -/

/-- An entry with consequence `q` is TRIPPED or OFFLINE at index `i`. -/
def State.entryInForce (s : State) (q : Consequence) (i : Fin 8) : Bool :=
  s.config.sats[i.val].consequence == q
    && (s.sat.entries[i.val].state == .tripped || s.sat.entries[i.val].state == .offline)

/-- A consequence is in force while some entry with it is TRIPPED or OFFLINE (R156). -/
def State.inForce (s : State) (q : Consequence) : Bool :=
  ([0, 1, 2, 3, 4, 5, 6, 7] : List (Fin 8)).any fun i => s.entryInForce q i

/-! ## The points (R72 to R81) -/

/-- The presence the web sample gives (R46). -/
def presenceOf (webOk : Bool) : Presence := if webOk then .present else .absent

/-- R46, R72, R96: the web sample of blank `n` sets its presence, and the setting is handed to the register monitor. -/
def fireWebSample (n : Serial) (s : State) : State :=
  match s.track.find n with
  | none => s
  | some b =>
    if b.presence = .pending then
      resolveWaiting n (s.updateBlank n fun b => b.setPresence (presenceOf s.webOk))
    else s

/-- R74: whether the knife of blank `b` fires (its slot is not void). -/
def knifeFires (s : State) (b : Blank) : Bool :=
  b.presence == .present && !b.defects.splice && s.shaft.motion == .moving && !s.inForce .patchInhibit

/-- R74: the knife of blank `n` fires or is suppressed, and the outcome is handed to the register monitor (R92). -/
def fireKnife (n : Serial) (s : State) : State :=
  match s.track.find n with
  | none => s
  | some b =>
    if knifeFires s b then handKnife n .fired (startPulse .patch s)
    else handKnife n .suppressed (if b.presence = .present then addDefect n .noPatch s else s)

/-- R80: whether a valve ON of blank `b` fires (its slot is not void). -/
def valveOnFires (s : State) (b : Blank) : Bool :=
  s.run.runState == .live && s.shaft.motion == .moving && b.presence == .present && !s.inForce .gumInhibit

/-- Replace the open segment set of a valve. -/
def State.setSegments (s : State) (v : Fin 4) (xs : List SegmentInstance) : State :=
  { s with sched := { s.sched with segments := s.sched.segments.set v.val xs } }

/-- An instance joins the open segment set of a valve (R80). -/
def openSegment (v : Fin 4) (i : SegmentInstance) (s : State) : State :=
  s.setSegments v (s.sched.segments[v.val] ++ [i])

/-- R80: the ON of segment `k` of valve `v`, armed as `x`. -/
def fireValveOn (v k : Fin 4) (x : ActionSlot) (s : State) : State :=
  match s.track.find x.serial with
  | none => s
  | some b =>
    if valveOnFires s b then openSegment v ⟨k, x.cycle, x.target⟩ s
    else if b.presence = .present then addDefect x.serial .noGum s else s

/-- R81: the OFF of segment `k` of valve `v` for cycle `c` removes its instance. -/
def fireValveOff (v k : Fin 4) (c : Serial) (s : State) : State :=
  s.setSegments v (s.sched.segments[v.val].filter fun i => !(i.segment == k && i.cycle == c))

/-- R75: whether the camera of blank `b` under profile `p` fires. -/
def cameraFires (p : Profile) (b : Blank) : Bool := p.header.cameraUse && b.presence == .present

/-- R75, R106: the camera of blank `n`: camera done, the CAMERA pulse, the BLANK_AT_CAMERA notice. -/
def fireCamera (n : Serial) (s : State) : State :=
  match s.track.find n with
  | none => s
  | some b =>
    match s.profiles.contentOf b.slot with
    | none => s
    | some p =>
      if cameraFires p b then
        post (.blankAtCamera n p.header.order p.header.expected)
          (startPulse .camera (s.updateBlank n fun b => { b with cameraDone := true }))
      else s

/-- What the firing of a point does, by the rule of its point (R72 to R81); `x` is the slot as it stood armed. -/
def fireAct (pt : TimedPoint) (x : ActionSlot) (s : State) : State :=
  match pt with
  | .webSample => fireWebSample x.serial s
  | .printOpen => openWindow .print x.serial x.cycle s
  | .printClose => closeWindow .print s
  | .patchKnife => fireKnife x.serial s
  | .patchOpen => openWindow .patch x.serial x.cycle s
  | .patchClose => closeWindow .patch s
  | .valveOn v k => fireValveOn v k x s
  | .valveOff v k => fireValveOff v k x.cycle s
  | .camera => fireCamera x.serial s
  | .gate => decideGate x.serial s
  | .count => countBlank x.serial x.cycle s
  | .kick => startPulse .kick s

/-- A slot at position 0 waits for the next cycle, whose blank is not yet created (R67). -/
def ActionSlot.waits (x : ActionSlot) : ActionSlot :=
  { x with phase := .waiting, cycle := x.cycle + 1, serial := x.serial + 1, passed := false }

/-- What becomes of the slot (R66, R67, R79): WAITING at position 0, UNARMED for the kick, else armed for the next cycle. -/
def advanceSlot (pt : TimedPoint) (x : ActionSlot) (s : State) : State :=
  match pt with
  | .webSample => s.setSlot pt x.waits
  | .printOpen => s.setSlot pt x.waits
  | .printClose => s.setSlot pt x.waits
  | .kick => s.setSlot pt { x with phase := .unarmed, passed := false }
  | _ => armSlot pt (x.cycle + 1) s

/-- One firing of an armed slot: its act, unless it is void (R59), then the slot's next state. -/
def fireOnce (pt : TimedPoint) (s : State) : State :=
  let x := s.slot pt
  advanceSlot pt x (if x.angle.isNone then s else fireAct pt x s)

end Sys2Proof.Machine
end

