-- ==== Sys2Proof/Machine/Tracking.lean ====
section
/-! DEFINITION. The tracking queue (chapter 3): creation, removal, flush, splices, the marks of an encoder fault; and the order in
which one movement takes the points and the boundary it passes (R70). -/

namespace Sys2Proof.Machine

/-! ## Creation and removal (R38, R43, R45) -/

/-- The record of R38. -/
def Blank.created (n : Serial) (slot : Fin 4) (spliced : Bool) : Blank where
  serial := n
  slot := slot
  presence := .pending
  defects := { DefectSet.empty with splice := spliced }
  printError := none
  patchError := none
  cameraDone := false
  verdicts := []
  outcome := .pending
  counted := .no

/-- R43, step 2, with R49: the record joins the end, the serials move on, and splice pending is used up. -/
def addRecord (slot : Fin 4) (s : State) : State :=
  let n := s.track.nextSerial
  { s with track :=
    { records := s.track.records ++ [Blank.created n slot s.track.splicePending]
      nextSerial := n + 1
      highWater := some n
      splicePending := false
      boundaryPassed := false } }

/-- R43, step 3, with R45: the record one past the delivery is removed, and the removal handed to the profile store. -/
def removePast (n : Serial) (s : State) : State :=
  let past := n - BitVec.ofNat 32 (s.config.stations.delivery + 1)
  match s.track.find past with
  | none => s
  | some _ =>
    retireCheck { s with track := { s.track with records := s.track.records.filter fun b => !(b.serial == past) } }

/-- R43: the creation of the next blank. The targets armed here that lie at or behind the position fire in the same event, in the
order of R70 (`settle`). -/
def createBlank (s : State) : State :=
  let n := s.track.nextSerial
  let spliced := s.track.splicePending
  let offered := changeoverAt n s
  let armed := armWaiting n (removePast n (addRecord (offered.profiles.active.getD 0) offered))
  if spliced then markSpliceSeen armed else armed

/-- The creation boundary H × P (R9); none while there is no high-water cycle. -/
def State.boundary (s : State) : Option Nat := s.track.highWater.map fun h => h.toNat * s.pitch

/-- While homed, a forward movement has passed the creation boundary (R9). -/
def State.creationDue (s : State) : Bool := s.shaft.homed && s.boundary.isSome && s.track.boundaryPassed

/-! ## Forward passage (R2, R9, R70) -/

/-- R2: while homed, the forward movement from position `x` to the position now held passes `y`: `y` lay beyond `x`, and the position
is at or beyond `y`. -/
def State.passes (s : State) (x y : Nat) : Bool :=
  s.shaft.homed && !atOrBeyond s.pitch x y && atOrBeyond s.pitch s.shaft.position y

/-- R70: an ARMED slot whose target the movement from `x` passed. -/
def ActionSlot.afterMove (a : ActionSlot) (s : State) (x : Nat) : ActionSlot :=
  { a with passed := a.passed || (a.phase == .armed && s.passes x a.target) }

/-- R9: the creation boundary that the movement from `x` passed. -/
def State.passesBoundary (s : State) (x : Nat) : Bool :=
  match s.boundary with
  | none => false
  | some b => s.passes x b

/-- R3, R9, R70: the targets and the creation boundary that the forward movement from position `x` has passed now stand passed. -/
def markPassed (x : Nat) (s : State) : State :=
  { s with
    sched := { s.sched with slots := mapVector (fun a => a.afterMove s x) s.sched.slots }
    track := { s.track with boundaryPassed := s.track.boundaryPassed || s.passesBoundary x } }

/-! ## The order of passage (R70) -/

/-- How far the position lies beyond a target: of two passed targets the one at the lower position lies farther back. -/
def State.lag (s : State) (pt : TimedPoint) : Nat := forwardDistance s.pitch s.shaft.position (s.slot pt).target

/-- The points whose targets stand passed. -/
def State.duePoints (s : State) : List TimedPoint := allPoints.filter s.due

/-- The largest of a list of numbers. -/
def greatest (xs : List Nat) : Nat := xs.foldl Nat.max 0

/-- The due points at the lowest passed position. -/
def State.firstDue (s : State) : List TimedPoint :=
  let far := greatest (s.duePoints.map s.lag)
  s.duePoints.filter fun pt => s.lag pt == far

/-- A valve OFF waits for the ON of the same segment instance at the same target (R70). -/
def State.waitsForOn (s : State) (tied : List TimedPoint) : TimedPoint → Bool
  | .valveOff v k => tied.any fun q => q == .valveOn v k && (s.slot q).cycle == (s.slot (.valveOff v k)).cycle
  | _ => false

/-- Void slots touch nothing but themselves, so that they are taken before the points they are tied with. -/
def State.firstVoid (s : State) (tied : List TimedPoint) : Option TimedPoint :=
  tied.find? fun pt => (s.slot pt).angle.isNone

/-- One of several tied points, by the free value of R70 (notes/assumptions/6.md). -/
def chooseTied (tied : List TimedPoint) (s : State) : Option TimedPoint :=
  match tied with
  | [pt] => some pt
  | pts => pts[Config.tieChoice s.freeCount % pts.length]?

/-- What a movement or a tick takes next: the creation, or the firing of a point. -/
inductive Passed where
  | creation
  | point (pt : TimedPoint)
  | tie (pts : List TimedPoint)
  deriving DecidableEq, Repr

/-- R70: the creation is taken before every target at the boundary or beyond. -/
def State.creationFirst (s : State) : Bool :=
  match s.boundary with
  | none => false
  | some b => s.creationDue && decide (greatest (s.duePoints.map s.lag) ≤ forwardDistance s.pitch s.shaft.position b)

/-- R70: the next of the passed targets and the boundary, in increasing order of position. -/
def State.nextPassed (s : State) : Option Passed :=
  if s.creationFirst then some .creation
  else
    match s.firstVoid s.firstDue with
    | some pt => some (.point pt)
    | none =>
      match s.firstDue.filter (fun pt => !s.waitsForOn s.firstDue pt) with
      | [] => none
      | [pt] => some (.point pt)
      | pts => some (.tie pts)

/-- Take one passed item: one firing. A slot whose new target lies at or behind the position is passed again (R64, R66), and takes its
turn by that target's own position (notes/assumptions/29.md). A tie uses one free value. -/
def takePassed (x : Passed) (s : State) : State :=
  match x with
  | .creation => createBlank s
  | .point pt => fireOnce pt s
  | .tie pts =>
    match chooseTied pts s with
    | none => s
    | some pt => fireOnce pt { s with freeCount := s.freeCount + 1 }

/-- The most items one event takes (notes/assumptions/8.md). -/
def settleLimit : Nat := 256

/-- R70, R68 step 3: take everything that stands passed, in order. -/
def settle : Nat → State → State
  | 0, s => s
  | k + 1, s =>
    match s.nextPassed with
    | none => s
    | some x => settle k (takePassed x s)

/-- The firings of one event, then the valve outputs (R82). -/
def settleEvent (s : State) : State := setValveOutputs (settle settleLimit s)

/-- The step of one point as a command: if its target stands passed, it fires (R70, R71). Where its new target stands passed too, the same
event goes on with all that stands passed, in order (R64, R66). -/
def firePoint (pt : TimedPoint) (s : State) : State :=
  if s.due pt then
    let fired := fireOnce pt s
    if fired.due pt then settleEvent fired else fired
  else s

/-! ## Flush and encoder fault (R51, R52, R55) -/

/-- R52, R55: all records are removed, with one TRACK_FLUSHED notice when there were any; then the retirement checks of the
removals run. -/
def flushRecords (s : State) : State :=
  match s.track.records.head?, s.track.records.getLast? with
  | some oldest, some newest =>
    retireCheck (post (.trackFlushed oldest.serial newest.serial) { s with track := { s.track with records := [] } })
  | _, _ => s

/-- R51: the mark an encoder fault puts on a record. -/
def Blank.faultMark (b : Blank) : Blank :=
  if b.presence = .present ∧ b.outcome = .pending then { b with defects := b.defects.insert .timing } else b

/-- R51: TIMING joins every PRESENT record the gate has not decided. -/
def markFault (s : State) : State :=
  { s with track := { s.track with records := s.track.records.map Blank.faultMark } }

/-! ## Splices (R48, R49) -/

/-- R48: a SPLICE edge in LIVE marks the newest blank, the first time with a marking handed to the profile store. -/
def spliceNewest (s : State) : State :=
  match s.track.highWater with
  | none => s
  | some h =>
    match s.track.find h with
    | none => s
    | some b => if b.defects.splice then s else markSpliceSeen (addDefect h .splice s)

/-- R48, R49: a SPLICE edge by the run state. -/
def spliceEdge (s : State) : State :=
  match s.run.runState with
  | .live => spliceNewest s
  | .homing => { s with track := { s.track with splicePending := true } }
  | .off => s

end Sys2Proof.Machine
end

