-- ==== Sys2Proof/Machine/Flags.lean ====
section
/-! DEFINITION. The flags the part computes: the count direction (R1), the index slip (R6), the speed (R11, R12), the motion flag
(R13). PERMIT, the attention lines and the outputs are computed in Ops.lean and Targets.lean. -/

namespace Sys2Proof.Machine

/-- What a sample of the encoder inputs is (R1). -/
inductive SampleKind where
  | same | forward | reverse | error
  deriving DecidableEq, Repr

/-- The next level pair of R1's cycle. -/
def nextPair (a b : Bool) : Bool × Bool := (!b, a)

/-- A step by one input, left to right in R1's cycle, is forward under NORMAL and reverse under INVERTED. -/
def stepKind (sense : EncoderSense) (leftToRight : Bool) : SampleKind :=
  if leftToRight == (sense == .normal) then .forward else .reverse

/-- R1: compare a sample with the quadrature state. -/
def sampleKind (sense : EncoderSense) (qa qb a b : Bool) : SampleKind :=
  if a = qa ∧ b = qb then .same
  else if a ≠ qa ∧ b ≠ qb then .error
  else stepKind sense ((a, b) == nextPair qa qb)

/-- R6: the slip δ of an index edge at angle `a`. -/
def indexSlip (pitch a : Nat) : Int := if a < pitch - pitch / 2 then (a : Int) else (a : Int) - (pitch : Int)

/-- The sum W of the speed window (R11). -/
def windowSum (xs : List Int) : Int := xs.foldl (· + ·) 0

/-- The window after the millisecond change `d` enters it (R11). -/
def pushWindow (xs : List Int) (d : Int) : List Int := xs.drop 1 ++ [d]

/-- S from W (R11). -/
def speedOf (w : Int) : Nat := if w < 0 then 0 else if 65535 < w then 65535 else w.toNat

/-- Cycles per minute from S; 0 without a pitch (R12). -/
def cyclesPerMinuteOf (speed pitch : Nat) : Nat := if pitch = 0 then 0 else speed * 3750 / pitch

/-- R13: the rest counter after a tick with sum W. -/
def restAfter (c : ShaftConfig) (w : Int) (rest : Nat) : Nat := if c.creep ≤ w.natAbs then 0 else Nat.min (rest + 1) c.restDwell

/-- R13: the motion flag after a tick whose rest counter is `rest`. -/
def motionAfter (c : ShaftConfig) (w : Int) (rest : Nat) (m : MotionFlag) : MotionFlag :=
  if c.creep ≤ w.natAbs then .moving else if rest = c.restDwell ∧ m = .moving then .atRest else m

end Sys2Proof.Machine
end

