-- ==== Sys2Proof/Machine/Shaft.lean ====
section
/-! DEFINITION. The shaft counter's events (chapter 1): counts, index edges, homing, encoder faults, ticks; and the scheduler's part
of a tick (R68). -/

namespace Sys2Proof.Machine

/-! ## Encoder faults (R8) -/

/-- R8, R165: an encoder fault. The latch is set and the homed flag cleared; present undecided blanks get TIMING (R51); the
scheduler leaves LIVE (R85); the register monitor abandons its work (R104); ENCODER joins the halt cause set and the run state
becomes HOMING, with the HALT notice (when the set changed) and then the RUN_STATE notice. -/
def encoderFault (kind : FaultKind) (detail : Int) (s : State) : State :=
  let latched := { s with shaft :=
    { s.shaft with latch := ⟨kind, detail⟩, homed := false, position := s.shaft.position % 2 ^ 48 } }
  let left := leaveLive (markFault latched)
  let abandoned := { left with reg := left.reg.abandon }
  let changed := abandoned.setRun .homing (s.run.causes.insert .encoder)
  postRunState s.run.runState .encoderFault (if s.run.causes.encoder then changed else postHalt s.run.causes changed)

/-! ## Counts (R1, R2, R7, R10) -/

/-- The position one count forward (R2). -/
def forwardPosition (s : State) : Nat :=
  if s.shaft.homed then (s.shaft.position + 1) % modulusOf s.pitch else (s.shaft.position + 1) % 2 ^ 48

/-- The position one count in reverse (R2). -/
def reversePosition (s : State) : Nat :=
  if s.shaft.homed then (s.shaft.position + (modulusOf s.pitch - 1)) % modulusOf s.pitch
  else (s.shaft.position + (2 ^ 48 - 1)) % 2 ^ 48

/-- R7: the position stands at or beyond the last index position, 2 × P counts from it. -/
def State.indexIsMissing (s : State) : Bool :=
  s.shaft.homed && atOrBeyond s.pitch s.shaft.position s.shaft.lastIndex
    && forwardDistance s.pitch s.shaft.position s.shaft.lastIndex == 2 * s.pitch

/-- R7, R8: the fault of a missing index, with the forward distance as its detail. -/
def missingIndexFault (s : State) : State :=
  encoderFault .indexMissing (forwardDistance s.pitch s.shaft.position s.shaft.lastIndex) s

/-- R1, R2, R3, R7: a forward count, and what it passes. -/
def countForward (s : State) : State :=
  let moved := { s with shaft :=
    { s.shaft with position := forwardPosition s, lastDir := .forward, msChange := s.shaft.msChange + 1 } }
  if moved.indexIsMissing then missingIndexFault moved else settleEvent (markPassed s.shaft.position moved)

/-- R1, R10: a reverse count passes nothing. -/
def countReverse (s : State) : State :=
  { s with shaft := { s.shaft with position := reversePosition s, lastDir := .reverse, msChange := s.shaft.msChange - 1 } }

/-- R1: a quadrature error is not counted; while homed it is an encoder fault. -/
def quadratureError (s : State) : State := if s.shaft.homed then encoderFault .quadrature 0 s else s

/-- The quadrature state takes the sample's levels (R1). -/
def State.setQuadrature (s : State) (a b : Bool) : State := { s with shaft := { s.shaft with quadA := a, quadB := b } }

/-- R1: a sample of ENC_A and ENC_B. -/
def sampleEncoder (a b : Bool) (s : State) : State :=
  match sampleKind s.config.shaft.sense s.shaft.quadA s.shaft.quadB a b with
  | .same => s
  | .forward => countForward (s.setQuadrature a b)
  | .reverse => countReverse (s.setQuadrature a b)
  | .error => quadratureError (s.setQuadrature a b)

/-! ## The index edge (R4 to R6) -/

/-- R5: the position is set to (c0 − 1) × P, the homed flag is YES and the slips start from 0. -/
def setHomed (c0 : Serial) (s : State) : State :=
  { s with shaft :=
    { s.shaft with
      position := cycleStart s.pitch c0
      homed := true
      lastIndex := cycleStart s.pitch c0
      slips := 0 } }

/-- R5, R44, R164, R65: homing. Records left by a fault are flushed, blank c0 is created, the run state becomes LIVE, and the
scheduler arms its slots. -/
def homePart (s : State) : State :=
  let c0 := s.track.nextSerial
  let created := createBlank (flushRecords (setHomed c0 s))
  let live := postRunState s.run.runState .homed (created.setRun .live created.run.causes)
  settleEvent (armAtHoming c0 live)

/-- R6: an index edge in tolerance corrects the position by −δ; a forward correction is forward passage (R3). -/
def correctPosition (slip : Int) (s : State) : State :=
  let position := offsetPosition s.pitch s.shaft.position (-slip)
  let moved := { s with shaft :=
    { s.shaft with position := position, lastIndex := position, slips := countUpTo 65535 s.shaft.slips } }
  if slip < 0 then settleEvent (markPassed s.shaft.position moved) else moved

/-- R6: the index check. -/
def checkIndex (s : State) : State :=
  let slip := indexSlip s.pitch (s.shaft.position % s.pitch)
  if slip = 0 then { s with shaft := { s.shaft with lastIndex := s.shaft.position } }
  else if slip.natAbs ≤ 4 then correctPosition slip s
  else encoderFault .indexOffset slip s

/-- R4: an index edge by the homed flag, the run state and the last direction. -/
def takeIndexEdge (s : State) : State :=
  if s.shaft.homed then checkIndex s
  else if s.run.runState = .homing ∧ s.shaft.lastDir = .forward then homePart s
  else s

/-! ## Ticks (R11 to R13, R68) -/

/-- R68, step 2: recompute the target of an armed compensated slot that is not void. -/
def recompute (pt : TimedPoint) (s : State) : State :=
  if (s.slot pt).phase = .armed ∧ (s.slot pt).angle.isSome ∧ (leadOf s.config pt).isSome then retarget pt s else s

/-- R68, step 2: every such slot. -/
def recomputeAll (s : State) : State := allPoints.foldl (fun s pt => recompute pt s) s

/-- R68: the scheduler's part of a tick; `stopped` says that the motion flag has just become AT_REST. -/
def scheduleTick (stopped : Bool) (s : State) : State :=
  if s.run.runState = .live then settleEvent (recomputeAll (if stopped then closeSegments s else s)) else s

/-- The motion flag has just become AT_REST (R13). -/
def restReached (before after : MotionFlag) : Bool := before == .moving && after == .atRest

/-- R11 to R13: the shaft counter at a tick. -/
def tickShaft (c : ShaftConfig) (x : Shaft) : Shaft :=
  let window := pushWindow x.window x.msChange
  let sum := windowSum window
  let rest := restAfter c sum x.restCounter
  { x with
    window := window
    msChange := 0
    speed := speedOf sum
    cyclesPerMinute := cyclesPerMinuteOf (speedOf sum) c.pitch
    restCounter := rest
    motion := motionAfter c sum rest x.motion }

/-- R11, R13, R68: a 1 ms tick. -/
def tickEvent (s : State) : State :=
  let after := tickShaft s.config.shaft s.shaft
  scheduleTick (restReached s.shaft.motion after.motion) { s with shaft := after }

/-- R13: the rest counter stands at the rest dwell, below the creep threshold, while the flag is MOVING. -/
def State.restDwellReached (s : State) : Bool :=
  s.shaft.motion == .moving && s.shaft.restCounter == s.config.shaft.restDwell
    && decide ((windowSum s.shaft.window).natAbs < s.config.shaft.creep)

/-- R13, R68: the flag becomes AT_REST, and the scheduler takes its part of that tick. -/
def restDwellExpires (s : State) : State := scheduleTick true { s with shaft := { s.shaft with motion := .atRest } }

end Sys2Proof.Machine
end

