-- ==== Sys2Proof/Machine/Satellite.lean ====
section
/-! DEFINITION. The satellite poller (chapter 8): rounds, transactions, the sample table, consequences. -/

namespace Sys2Proof.Machine

/-! ## The sample table (R152 to R155) -/

/-- Replace one sample entry. -/
def State.setEntry (s : State) (n : Fin 8) (e : SampleEntry) : State :=
  { s with sat := { s.sat with entries := s.sat.entries.set n.val e } }

/-- One sample entry. -/
def State.entry (s : State) (n : Fin 8) : SampleEntry := s.sat.entries[n.val]

/-- The satellite table entry of the same number (R147). -/
def State.satConfig (s : State) (n : Fin 8) : SatConfig := s.config.sats[n.val]

/-- A value is beyond the threshold (R147). -/
def SatConfig.beyond (c : SatConfig) (value : Half) : Bool :=
  match c.sense with
  | .below => decide (value.toNat < c.threshold)
  | .above => decide (c.threshold < value.toNat)

/-- R153: the entry after an answer on the side `opposite` to its state; `dwell` answers in a row change the state to `other`. -/
def dwellStep (dwell : Nat) (opposite : Bool) (other : SatState) (e : SampleEntry) : SampleEntry :=
  if opposite then
    if e.dwell + 1 = dwell then { e with state := other, dwell := 0 } else { e with dwell := e.dwell + 1 }
  else { e with dwell := 0 }

/-- R153: an answer is judged against threshold, sense and dwell, from NORMAL or TRIPPED. -/
def judgeSample (c : SatConfig) (value : Half) (e : SampleEntry) : SampleEntry :=
  if e.state = .tripped then dwellStep c.dwell (!c.beyond value) .normal e
  else dwellStep c.dwell (c.beyond value) .tripped e

/-- R152, step 3: from UNKNOWN or OFFLINE the dwell starts afresh and the entry is taken as NORMAL. -/
def asNormal (e : SampleEntry) : SampleEntry :=
  if e.state = .unknown ∨ e.state = .offline then { e with state := .normal, dwell := 0 } else e

/-- R152: the entry after an answer in round `round`. -/
def answeredEntry (c : SatConfig) (round : Serial) (value : Half) (e : SampleEntry) : SampleEntry :=
  judgeSample c value (asNormal { e with value := some value, lastGood := some round, failure := 0 })

/-- R154: the entry after a no-answer. -/
def unansweredEntry (e : SampleEntry) : SampleEntry :=
  let failed := { e with failure := countUpTo 255 e.failure }
  if failed.failure = 3 ∧ e.state ≠ .offline then { failed with state := .offline, dwell := 0 } else failed

/-- R157: a change of a HOLD entry into TRIPPED or OFFLINE hands SATELLITE. -/
def handHold (c : SatConfig) (after : SatState) (s : State) : State :=
  if c.consequence = .hold ∧ (after = .tripped ∨ after = .offline) then handCause .satellite s else s

/-- R155, R157: entry `n` becomes `e`; a change of state posts SATELLITE and then hands its HOLD. -/
def changeEntry (n : Fin 8) (e : SampleEntry) (s : State) : State :=
  let before := (s.entry n).state
  let changed := s.setEntry n e
  if e.state = before then changed
  else
    handHold (s.satConfig n) e.state
      (post (.satellite n before e.state e.value s.sat.round (s.satConfig n).consequence) changed)

/-! ## Transactions (R149 to R151, R160) -/

/-- The address byte with the write direction (R150, phase 2). -/
def Transaction.writeByte (t : Transaction) : Byte := BitVec.ofNat 8 (2 * t.address)

/-- The register byte (R150, phase 3). -/
def Transaction.registerByte (t : Transaction) : Byte := BitVec.ofNat 8 t.register

/-- The address byte with the read direction (R150, phase 5). -/
def Transaction.readByte (t : Transaction) : Byte := BitVec.ofNat 8 (2 * t.address + 1)

/-- Phases 1 to 6 of a poll on the bus (R150), every byte acknowledged but the last, which the poller does not acknowledge. -/
def Transaction.phases (t : Transaction) (hi lo : Byte) : List BusItem :=
  [.start, .sent t.writeByte true, .sent t.registerByte true, .repeatedStart, .sent t.readByte true, .received hi true,
   .received lo false]

/-- An answered transaction on the bus (R150): all phases and the stop condition. -/
def Transaction.answered (t : Transaction) (hi lo : Byte) : List BusItem := t.phases hi lo ++ [.stop]

/-- A transaction whose byte is not acknowledged (R151): the poller sends a stop condition at once. A refused byte whose stop condition
cannot be made, a line being held low, is left to the timeout (`Transaction.timedOut`; the model's choice, notes/assumptions/28.md). -/
def Transaction.refused (t : Transaction) : NackByte → List BusItem
  | .addressWrite => [.start, .sent t.writeByte false, .stop]
  | .register => [.start, .sent t.writeByte true, .sent t.registerByte false, .stop]
  | .addressRead =>
    [.start, .sent t.writeByte true, .sent t.registerByte true, .repeatedStart, .sent t.readByte false, .stop]

/-- The same items with the last of them, where it is a byte the poller sent, not acknowledged. -/
def lastRefused : List BusItem → List BusItem
  | [] => []
  | [.sent byte _] => [.sent byte false]
  | x :: xs => x :: lastRefused xs

/-- A transaction that timed out (R151): as much of its phases as stood whole, by the `n`-th free value, and a stop condition where the
lines allow one, which is free too: a line held low leaves none. Whether the byte sent last was refused is free as well: a refused byte
whose stop condition cannot be made leaves the transaction on the bus until its timeout (the model's choice,
notes/assumptions/28.md). -/
def Transaction.timedOut (t : Transaction) (n : Nat) : List BusItem :=
  let reached :=
    (t.phases (BitVec.ofNat 8 ((Config.busData n).toNat / 256)) (BitVec.ofNat 8 (Config.busData n).toNat)).take
      (Config.busReached n % 8)
  (if Config.busRefused n then lastRefused reached else reached) ++ if Config.busFreed n then [.stop] else []

/-- R149: entry `n` is polled in the current round. -/
def State.pollDue (s : State) (n : Fin 8) : Bool :=
  (s.satConfig n).enable && s.sat.round.toNat % (s.satConfig n).divider == 0

/-- The entries in the order of their numbers. -/
def allEntries : List (Fin 8) := [0, 1, 2, 3, 4, 5, 6, 7]

/-- R149: the first entry due in the current round whose number is at least `k`. -/
def State.nextEntry (s : State) (k : Nat) : Option (Fin 8) := allEntries.find? fun n => decide (k ≤ n.val) && s.pollDue n

/-- The poll of entry `n` that begins now (R150). -/
def State.pollOf (s : State) (n : Fin 8) : Transaction :=
  ⟨n, s.time, false, (s.satConfig n).address, (s.satConfig n).register⟩

/-- R149: poll the first entry due from number `k` on; with none due the round has ended. -/
def pollFrom (k : Nat) (s : State) : State :=
  match s.nextEntry k with
  | none => { s with sat := { s.sat with transaction := none } }
  | some n => { s with sat := { s.sat with transaction := some (s.pollOf n) } }

/-- R149, R160: the transaction `t` has ended, having put `bus` on the bus: the next entry due is polled; after a discarded one only
a waiting round begins. -/
def endTransaction (t : Transaction) (bus : List BusItem) (s : State) : State :=
  let ended := { s with sat := { s.sat with transaction := none, bus := bus } }
  if t.discard then
    if s.sat.pollWaiting then pollFrom 0 { ended with sat := { ended.sat with pollWaiting := false } } else ended
  else pollFrom (t.entry.val + 1) ended

/-- R150, R152: the transaction on the bus ends with an answer, whose value is the first data byte times 256 plus the second. -/
def answerTransaction (hi lo : Byte) (s : State) : State :=
  match s.sat.transaction with
  | none => s
  | some t =>
    let value : Half := BitVec.ofNat 16 (256 * hi.toNat + lo.toNat)
    endTransaction t (t.answered hi lo)
      (if t.discard then s
       else changeEntry t.entry (answeredEntry (s.satConfig t.entry) s.sat.round value (s.entry t.entry)) s)

/-- R151, R154: the transaction `t` ends without an answer, having put `bus` on the bus. -/
def failTransaction (t : Transaction) (bus : List BusItem) (s : State) : State :=
  endTransaction t bus
    (if t.discard then s else changeEntry t.entry (unansweredEntry (s.entry t.entry)) s)

/-- R151: the module does not acknowledge a byte of the transaction on the bus. -/
def refuseTransaction (byte : NackByte) (s : State) : State :=
  match s.sat.transaction with
  | none => s
  | some t => failTransaction t (t.refused byte) s

/-- R151: the transaction on the bus times out; how far it had come uses one free value. -/
def timeOutTransaction (s : State) : State :=
  match s.sat.transaction with
  | none => s
  | some t => failTransaction t (t.timedOut s.freeCount) { s with freeCount := s.freeCount + 1 }

/-- The transaction has stood on the bus for 1,000 µs (R151). -/
def State.timeoutAt (s : State) : Option Nat := s.sat.transaction.map fun t => t.start + 1000

/-! ## Rounds (R148) -/

/-- When the next round starts: the first tick after START for round 0, and then whenever the round phase reaches 10,000 µs. -/
def State.roundAt (s : State) : Option Nat :=
  if s.sat.running then
    match s.sat.firstRound with
    | some t => some t
    | none => some (s.time + (10000 - s.sat.phase))
  else none

/-- R148, R149: the next round starts, its phase from 0, and its first due entry is polled; a transaction still on the bus makes it
wait. -/
def startRound (s : State) : State :=
  let round : Serial :=
    match s.sat.firstRound with
    | some _ => 0
    | none => s.sat.round + 1
  let started := { s with sat := { s.sat with round := round, phase := 0, firstRound := none } }
  match s.sat.transaction with
  | some _ => { started with sat := { started.sat with pollWaiting := true } }
  | none => pollFrom 0 started

/-- The time of the first 1 ms tick after `time` (R11). -/
def nextTickTime (time : Nat) : Nat := (time / 1000 + 1) * 1000

/-- R148: polling becomes RUNNING at START. -/
def Poller.begin (x : Poller) (time : Nat) : Poller := { x with running := true, firstRound := some (nextTickTime time) }

/-- R160: polling becomes STOPPED; the entries are UNKNOWN and a transaction on the bus takes the discard mark. -/
def Poller.halt (x : Poller) : Poller where
  running := false
  round := x.round
  phase := x.phase
  transaction := x.transaction.map fun t => { t with discard := true }
  bus := x.bus
  entries := Vector.replicate 8 SampleEntry.reset
  firstRound := none
  pollWaiting := false

/-- R157: a HOLD consequence is in force. -/
def State.holdInForce (s : State) : Bool := s.inForce .hold

end Sys2Proof.Machine
end

