-- ==== Sys2Proof/Machine/Clock.lean ====
section
/-! DEFINITION. The 1 µs time base (R11) and what happens on it without any command: pulse ends (R83), transaction timeouts (R151),
poll rounds (R148), the 1 ms tick (R11). Commands take no time (notes/assumptions/4.md). -/

namespace Sys2Proof.Machine

/-- What the time base brings about. -/
inductive TimedEvent where
  | pulseEnd (ch : PulseChannel)
  | timeout
  | roundStart
  deriving DecidableEq, Repr

/-- A timed event and its moment. -/
structure Moment where
  time : Nat
  event : TimedEvent
  deriving DecidableEq, Repr

/-- The moment of an event, if it is to come. -/
def momentOf (event : TimedEvent) : Option Nat → List Moment
  | none => []
  | some t => [⟨t, event⟩]

/-- The timed events to come, in the order in which those of one moment are taken (notes/assumptions/7.md). -/
def State.moments (s : State) : List Moment :=
  momentOf (.pulseEnd .patch) s.sched.patchPulse ++ momentOf (.pulseEnd .camera) s.sched.cameraPulse
    ++ momentOf (.pulseEnd .kick) s.sched.kickPulse ++ momentOf .timeout s.timeoutAt ++ momentOf .roundStart s.roundAt

/-- The earliest of the moments up to `limit`; the first listed of equal ones. -/
def earliest (limit : Nat) : List Moment → Option Moment
  | [] => none
  | m :: ms =>
    match earliest limit ms with
    | none => if m.time ≤ limit then some m else none
    | some b => if m.time ≤ b.time then some m else some b

/-- The time base moves on to `t` (never back), and the round phase with it while a round has started (R148). -/
def passTime (t : Nat) (s : State) : State :=
  { s with
    time := Nat.max s.time t
    sat :=
      if s.sat.running && s.sat.firstRound.isNone then { s.sat with phase := s.sat.phase + (t - s.time) } else s.sat }

/-- Take a timed event. -/
def takeTimed (event : TimedEvent) (s : State) : State :=
  match event with
  | .pulseEnd ch => endPulse ch s
  | .timeout => timeOutTransaction s
  | .roundStart => startRound s

/-- The most timed events taken in one advance of at most 1 ms (notes/assumptions/8.md). -/
def timedLimit : Nat := 16

/-- The time base moves on to `limit`, taking the timed events on the way in order of time. A transaction still on the bus at its
1,000 µs mark times out there, so that an answer of that very microsecond is one only if it is queued before the time base reaches
the mark (notes/assumptions/7.md). -/
def advanceTime : Nat → Nat → State → State
  | 0, limit, s => passTime limit s
  | k + 1, limit, s =>
    match earliest limit s.moments with
    | none => passTime limit s
    | some m => advanceTime k limit (takeTimed m.event (passTime m.time s))

/-- Time passes to the next 1 ms tick, and the tick is taken (R11). -/
def passTick (s : State) : State := tickEvent (advanceTime timedLimit (nextTickTime s.time) s)

/-- One microsecond passes with no command waiting; at a multiple of 1,000 µs the 1 ms tick is taken (R11). -/
def passMicrosecond (s : State) : State :=
  let later := advanceTime timedLimit (s.time + 1) s
  if (s.time + 1) % 1000 = 0 then tickEvent later else later

end Sys2Proof.Machine
end

