-- ==== Sys2Proof/Machine/Transfer.lean ====
section
/-! DEFINITION. The command ports' transfers, frames and answers (sections 11.1 and 11.4). -/

namespace Sys2Proof.Machine

/-! ## Response frames (R190, R202) -/

/-- The bytes of a response frame (R202). -/
def Response.bytes (r : Response) : List Byte :=
  [r.code, r.tag] ++ byteOf r.result.code ++ byteOf r.reason.code ++ byteOf r.payload.length ++ r.payload

/-- The NONE frame (R190). -/
def noneFrame : Response := ⟨0, 0, .none, .none, []⟩

/-- The frame a transfer shifts out: the pending response or the NONE frame (R190). -/
def Port.frameToShift (p : Port) : List Byte := (p.pending.getD noneFrame).bytes

/-- The first `n` bytes of a frame, and zeros after its end (R190). -/
def shiftOut (n : Nat) (bytes : List Byte) : List Byte := bytes.take n ++ List.replicate (n - bytes.length) 0

/-! ## Transfers (R189 to R191, R201) -/

/-- Chip select becomes active, and the whole bytes `mosi`, if any, are shifted in: the response shifted out is decided, and the
pending response becomes none at the first whole byte (R190). -/
def Port.beginTransfer (p : Port) (mosi : List Byte) : Port :=
  { p with
    transfer := .shifting mosi, pending := if mosi.isEmpty then p.pending else none, outFrame := p.frameToShift,
    miso := shiftOut mosi.length p.frameToShift }

/-- Further whole bytes of the transfer in progress; at its first whole byte the pending response becomes none (R190). -/
def Port.continueTransfer (p : Port) (already mosi : List Byte) : Port :=
  { p with
    transfer := .shifting (already ++ mosi), pending := if (already ++ mosi).isEmpty then p.pending else none,
    miso := shiftOut (already ++ mosi).length p.outFrame }

/-- R189, R190: a transfer begins on an IDLE port, or whole bytes are shifted in on one whose transfer is open
(notes/assumptions/14.md). Of a transfer that stood open at a hardware reset nothing is taken and nothing is shifted out (R201). -/
def Port.shiftIn (p : Port) (mosi : List Byte) : Port :=
  match p.transfer with
  | .idle => p.beginTransfer mosi
  | .shifting already => p.continueTransfer already mosi
  | .ignored => p

/-- The bytes a transfer has shifted in when it ends, given the bytes `all` the command says it holds: `all` itself, or the longer
list already shifted in of which `all` is the beginning; none where the two contradict each other, where no whole byte was shifted
(R189), or where the transfer is ignored (R201) (notes/assumptions/14.md). -/
def Port.transferBytes (p : Port) (all : List Byte) : Option (List Byte) :=
  match p.transfer with
  | .idle => if all.isEmpty then none else some all
  | .shifting already =>
    if already.isEmpty && all.isEmpty then none
    else if already.isPrefixOf all then some all
    else if all.isPrefixOf already then some already else none
  | .ignored => none

/-- The port after a transfer of `all` has ended: IDLE, its response shifted out as far as the transfer went. -/
def Port.endTransfer (p : Port) (all : List Byte) : Port :=
  match p.transfer with
  | .shifting _ => { p with transfer := .idle, pending := none, miso := shiftOut all.length p.outFrame }
  | _ =>
    { p with
      transfer := .idle, pending := none, outFrame := p.frameToShift, miso := shiftOut all.length p.frameToShift }

/-- The end of a transfer that is no event but the return to IDLE: one in which no whole byte was shifted (R189), and one that is
ignored since a hardware reset (R201). -/
def Port.endsUnjudged (p : Port) (all : List Byte) : Bool :=
  p.transfer == .ignored || (p.transfer == .shifting [] && all.isEmpty)

/-- What the end of a transfer gives: the part, and the bytes to judge, if any. -/
structure EndedTransfer where
  part : State
  bytes : Option (List Byte)
  deriving DecidableEq, Repr

/-- A transfer on port `p` ends (R189, R191, R201). -/
def endTransfer (p : PortId) (all : List Byte) (s : State) : EndedTransfer :=
  match (s.port p).transferBytes all with
  | some bytes => ⟨s.setPort p ((s.port p).endTransfer bytes), some bytes⟩
  | none =>
    if (s.port p).endsUnjudged all then ⟨s.setPort p { s.port p with transfer := .idle }, none⟩ else ⟨s, none⟩

/-- A response becomes the port's pending response (R191). -/
def respond (p : PortId) (r : Response) (s : State) : State := s.setPort p { s.port p with pending := some r }

/-! ## Frames (R191) -/

/-- The largest command payload (R191, R200). -/
def commandPayloadLimit : Nat := 61

/-- The largest response payload (R200). -/
def responsePayloadLimit : Nat := 250

/-- R191: fewer than 3 bytes, L above 61, or fewer than 3 + L bytes. -/
def malformed (bytes : List Byte) : Bool :=
  decide (bytes.length < 3) || decide (commandPayloadLimit < u8At bytes 2) || decide (bytes.length < 3 + u8At bytes 2)

/-- The codes of the command index (R204). -/
def commandCodes : List Byte :=
  [0x00, 0x01, 0x02, 0x03, 0x10, 0x11, 0x12, 0x13, 0x14, 0x18, 0x19, 0x20, 0x21, 0x22, 0x23, 0x24, 0x25, 0x26, 0x28, 0x29, 0x30,
   0x38, 0x40, 0x48, 0x49, 0x4A, 0x50]

/-- R191: a complete frame whose code is not in the command index. -/
def unknownCode (bytes : List Byte) : Bool := !malformed bytes && !commandCodes.contains (bytes.getD 0 0)

/-- The FRAME response: the code and tag as far as they were received (R191). -/
def frameResponse (bytes : List Byte) : Response := ⟨bytes.getD 0 0, bytes.getD 1 0, .frame, .none, []⟩

/-- The UNKNOWN response (R191). -/
def unknownResponse (bytes : List Byte) : Response := ⟨bytes.getD 0 0, bytes.getD 1 0, .unknown, .none, []⟩

/-- The bytes of a command frame (R202). -/
def commandFrame (code tag : Byte) (payload : List Byte) : List Byte :=
  code :: tag :: BitVec.ofNat 8 payload.length :: payload

/-- The end of a transfer whose bytes meet `judge` makes `answer` pending; other bytes are no such event. -/
def endWithAnswer (p : PortId) (all : List Byte) (judge : List Byte → Bool) (answer : List Byte → Response) (s : State) :
    State :=
  match (endTransfer p all s).bytes with
  | none => (endTransfer p all s).part
  | some bytes => if judge bytes then respond p (answer bytes) (endTransfer p all s).part else s

/-! ## Answers (R193, R194) -/

/-- What a command's own rule answers: the part afterwards and the result, reason and payload. -/
structure Answer where
  part : State
  result : Result
  reason : Reason
  payload : List Byte
  deriving DecidableEq, Repr

/-- An OK answer. -/
def answerOk (payload : List Byte) (s : State) : Answer := ⟨s, .ok, .none, payload⟩

/-- A refusal without a payload. -/
def refuse (reason : Reason) (s : State) : Answer := ⟨s, .refused, reason, []⟩

/-- The item kinds of an INVALID refusal, in code order (R194, R203). -/
inductive InvalidKind where
  | none | length | profileSection | configSection | configField | startCheck
  deriving DecidableEq, Repr

def InvalidKind.code : InvalidKind → Nat
  | .none => 0
  | .length => 1
  | .profileSection => 2
  | .configSection => 3
  | .configField => 4
  | .startCheck => 5

/-- A refusal INVALID with its three bytes: item kind, item, field (R194). -/
def invalid (kind : InvalidKind) (item field : Nat) (s : State) : Answer :=
  ⟨s, .refused, .invalid, byteOf kind.code ++ byteOf item ++ byteOf field⟩

/-- R194: a payload whose length differs from the fixed one is refused INVALID before any other check. -/
def withLength (n : Nat) (payload : List Byte) (body : State → Answer) (s : State) : Answer :=
  if payload.length = n then body s else invalid .length 0 n s

/-- A command taken on port `p` at the end of its transfer (R191): its answer becomes the pending response. A payload above 61
bytes is no command frame and is answered FRAME. -/
def takeCommand (p : PortId) (code tag : Byte) (payload : List Byte) (body : State → Answer) (s : State) : State :=
  match (endTransfer p (commandFrame code tag payload) s).bytes with
  | none => (endTransfer p (commandFrame code tag payload) s).part
  | some _ =>
    if payload.length ≤ commandPayloadLimit then
      let a := body (endTransfer p (commandFrame code tag payload) s).part
      respond p ⟨code, tag, a.result, a.reason, a.payload⟩ a.part
    else respond p ⟨code, tag, .frame, .none, []⟩ (endTransfer p (commandFrame code tag payload) s).part

end Sys2Proof.Machine
end

