-- ==== Sys2Proof/Decode.lean ====
section
/-! DEFINITION. What a word of the opcode table spells (nothing: the table gives no row any bits), and what the bytes of a whole
transfer on a command port spell (R191, R202, R204), with the frame of each command beside it. -/

namespace Sys2Proof

/-- The command a word spells by the bits of spec/opcode_table.json. The table gives no row any bits, so no word spells a command
(notes/assumptions/18.md). -/
def decodeTableWord (_nbits _w : Nat) : Option Instr := none

/-- The command with a code of the command index (R204). -/
def commandOf (p : PortId) (code tag : Byte) (payload : List Byte) : Option Instr :=
  match code.toNat with
  | 0 => some (.nop p tag payload)
  | 1 => some (.identify p tag payload)
  | 2 => some (.subscribe p tag payload)
  | 3 => some (.noticeRead p tag payload)
  | 16 => some (.status p tag payload)
  | 17 => some (.start p tag payload)
  | 18 => some (.stop p tag payload)
  | 19 => some (.clearHalt p tag payload)
  | 20 => some (.runReset p tag payload)
  | 24 => some (.configWrite p tag payload)
  | 25 => some (.configRead p tag payload)
  | 32 => some (.stageOpen p tag payload)
  | 33 => some (.stageWrite p tag payload)
  | 34 => some (.stageCommit p tag payload)
  | 35 => some (.stageDrop p tag payload)
  | 36 => some (.slotErase p tag payload)
  | 37 => some (.slotRead p tag payload)
  | 38 => some (.slotSignature p tag payload)
  | 40 => some (.changeoverArm p tag payload)
  | 41 => some (.changeoverCancel p tag payload)
  | 48 => some (.trackRead p tag payload)
  | 56 => some (.registerRead p tag payload)
  | 64 => some (.verdict p tag payload)
  | 72 => some (.batchClose p tag payload)
  | 73 => some (.batchPeek p tag payload)
  | 74 => some (.batchAck p tag payload)
  | 80 => some (.satelliteRead p tag payload)
  | _ => none

/-- R191: what the bytes of a whole transfer on port `p` spell when it ends: a malformed frame, a code outside the index, or a
command, whose payload is the L bytes after the third (bytes after them are ignored). -/
def decodeTransfer (p : PortId) (bytes : List Byte) : Instr :=
  if Machine.malformed bytes then .frame p bytes
  else
    match commandOf p (bytes.getD 0 0) (bytes.getD 1 0) ((bytes.drop 3).take (Machine.u8At bytes 2)) with
    | some c => c
    | none => .unknown p bytes

/-- A transfer: its port and the bytes it shifts in. -/
structure TransferBytes where
  port : PortId
  bytes : List Byte
  deriving DecidableEq, Repr

/-- The transfer that gives a command of a port (R202), and none for an event. -/
def encodeTransfer (i : Instr) : Option TransferBytes :=
  match i with
  | .hardwareReset _ _ => none
  | .encoderCount _ _ _ => none
  | .indexEdge _ => none
  | .indexMissing => none
  | .blankCreation => none
  | .tick => none
  | .restDwellExpiry => none
  | .webSample _ => none
  | .windowOpen _ => none
  | .windowClose _ => none
  | .captureEdge _ => none
  | .spliceEdge => none
  | .patchKnife => none
  | .valveOn _ _ => none
  | .valveOff _ _ => none
  | .voidSlotConsumed _ => none
  | .camera => none
  | .gateDecision => none
  | .countPoint => none
  | .kick => none
  | .pulseEnd _ => none
  | .roundStart => none
  | .transactionAnswer _ _ => none
  | .noAcknowledge _ => none
  | .transactionTimeout => none
  | .transferBegin _ _ => none
  | .frame p bytes => some ⟨p, bytes⟩
  | .unknown p bytes => some ⟨p, bytes⟩
  | .nop p tag payload => some ⟨p, Machine.commandFrame 0x00 tag payload⟩
  | .identify p tag payload => some ⟨p, Machine.commandFrame 0x01 tag payload⟩
  | .subscribe p tag payload => some ⟨p, Machine.commandFrame 0x02 tag payload⟩
  | .noticeRead p tag payload => some ⟨p, Machine.commandFrame 0x03 tag payload⟩
  | .status p tag payload => some ⟨p, Machine.commandFrame 0x10 tag payload⟩
  | .start p tag payload => some ⟨p, Machine.commandFrame 0x11 tag payload⟩
  | .stop p tag payload => some ⟨p, Machine.commandFrame 0x12 tag payload⟩
  | .clearHalt p tag payload => some ⟨p, Machine.commandFrame 0x13 tag payload⟩
  | .runReset p tag payload => some ⟨p, Machine.commandFrame 0x14 tag payload⟩
  | .configWrite p tag payload => some ⟨p, Machine.commandFrame 0x18 tag payload⟩
  | .configRead p tag payload => some ⟨p, Machine.commandFrame 0x19 tag payload⟩
  | .stageOpen p tag payload => some ⟨p, Machine.commandFrame 0x20 tag payload⟩
  | .stageWrite p tag payload => some ⟨p, Machine.commandFrame 0x21 tag payload⟩
  | .stageCommit p tag payload => some ⟨p, Machine.commandFrame 0x22 tag payload⟩
  | .stageDrop p tag payload => some ⟨p, Machine.commandFrame 0x23 tag payload⟩
  | .slotErase p tag payload => some ⟨p, Machine.commandFrame 0x24 tag payload⟩
  | .slotRead p tag payload => some ⟨p, Machine.commandFrame 0x25 tag payload⟩
  | .slotSignature p tag payload => some ⟨p, Machine.commandFrame 0x26 tag payload⟩
  | .changeoverArm p tag payload => some ⟨p, Machine.commandFrame 0x28 tag payload⟩
  | .changeoverCancel p tag payload => some ⟨p, Machine.commandFrame 0x29 tag payload⟩
  | .trackRead p tag payload => some ⟨p, Machine.commandFrame 0x30 tag payload⟩
  | .registerRead p tag payload => some ⟨p, Machine.commandFrame 0x38 tag payload⟩
  | .verdict p tag payload => some ⟨p, Machine.commandFrame 0x40 tag payload⟩
  | .batchClose p tag payload => some ⟨p, Machine.commandFrame 0x48 tag payload⟩
  | .batchPeek p tag payload => some ⟨p, Machine.commandFrame 0x49 tag payload⟩
  | .batchAck p tag payload => some ⟨p, Machine.commandFrame 0x4A tag payload⟩
  | .satelliteRead p tag payload => some ⟨p, Machine.commandFrame 0x50 tag payload⟩
  | .quadratureErrorSample => none

end Sys2Proof
end

