-- ==== Sys2Proof/Machine/Encoding.lean ====
section
/-! DEFINITION. The byte layouts of the answers and the notice records (R202 to R205). -/

namespace Sys2Proof.Machine

/-! ## Batch and blank records (R204) -/

/-- The fields a batch has adopted; a record without them reads 0 (notes/assumptions/12.md). -/
def BatchBody.adopted (b : BatchBody) : BatchOrder := b.order.getD ⟨0, 0, 0, 0⟩

/-- The serials of a batch; a record without them reads 0 (notes/assumptions/12.md). -/
def BatchBody.serials (b : BatchBody) : SerialSpan := b.span.getD ⟨0, 0⟩

/-- A batch record, 35 bytes. -/
def batchBytes (b : BatchBody) : List Byte :=
  serialBytes b.number ++ byteOf b.adopted.slot.val ++ serialBytes b.adopted.order ++ bytes2 b.adopted.target
    ++ bytes2 b.adopted.overrun ++ bytes4 b.good ++ bytes4 b.rejects ++ bytes4 b.strays ++ serialBytes b.serials.first
    ++ serialBytes b.serials.last ++ flagByte b.held ++ flagByte b.mixed

/-- A verdict entry of a blank record. -/
def verdictBytes (v : VerdictEntry) : List Byte :=
  byteOf v.source.val ++ byteOf v.result.code ++ [v.code] ++ flagByte v.late

/-- The verdict list, padded to four entries of 0. -/
def verdictListBytes (vs : List VerdictEntry) : List Byte :=
  byteOf vs.length ++ shiftOut 16 (vs.flatMap verdictBytes)

/-- A blank record, 34 bytes. -/
def blankBytes (b : Blank) : List Byte :=
  serialBytes b.serial ++ byteOf b.slot.val ++ byteOf b.presence.code ++ bytes2 b.defects.mask
    ++ optionalItem 2 signed2 b.printError ++ optionalItem 2 signed2 b.patchError ++ flagByte b.cameraDone
    ++ verdictListBytes b.verdicts ++ byteOf b.outcome.code ++ byteOf b.counted.code

/-! ## Register channels (R102, R204) -/

/-- The last judgement: code, serial and ε. Where the code is none the serial and ε, and where it is MISSING ε, are laid out as 0: the
spec does not state them (notes/assumptions/26.md). -/
def lastBytes : LastJudgement → List Byte
  | .none => byteOf 0 ++ bytes4 0 ++ bytes2 0
  | .error n eps => byteOf 1 ++ serialBytes n ++ signed2 eps
  | .missing n => byteOf 2 ++ serialBytes n ++ bytes2 0

/-- The window: state, serial and capture. While it is CLOSED the serial is laid out as 0, which the spec does not state, and the
capture is absent (notes/assumptions/26.md). -/
def windowBytes : Option WindowRecord → List Byte
  | none => byteOf 0 ++ bytes4 0 ++ optionalItem 2 bytes2 none
  | some w => byteOf 1 ++ serialBytes w.serial ++ optionalItem 2 bytes2 w.capture

/-- A register channel with its max correction. -/
def channelBytes (x : Channel) (max : Nat) : List Byte :=
  byteOf x.state.code ++ signed2 x.value ++ bytes2 max ++ byteOf x.bad ++ byteOf x.good ++ lastBytes x.last
    ++ windowBytes x.window

/-- The knife outcome list, padded to two entries (R204). That the padding bytes hold 0, and that the older entry
comes first, is the model's choice (notes/assumptions/26.md and 32.md). -/
def knifeListBytes (ks : List KnifeEntry) : List Byte :=
  byteOf ks.length ++ shiftOut 10 (ks.flatMap fun k => serialBytes k.serial ++ byteOf k.outcome.code)

/-- The REGISTER_READ answer: PRINT with its waiting judgement, PATCH with its knife outcome list. -/
def registerBytes (s : State) : List Byte :=
  channelBytes s.reg.print s.config.register.printMax
    ++ optionalItem 4 (fun w : WindowRecord => serialBytes w.serial) s.reg.waiting
    ++ channelBytes s.reg.patch s.config.register.patchMax ++ knifeListBytes s.reg.knives

/-! ## Notice records (R205) -/

/-- The code of a notice's kind. -/
def Notice.code : Notice → Nat
  | .blankAtCamera .. => 0
  | .changeover .. => 1
  | .profileRetired .. => 2
  | .batchClosed .. => 3
  | .backlog .. => 4
  | .batchLost .. => 5
  | .halt .. => 6
  | .runState .. => 7
  | .register .. => 8
  | .satellite .. => 9
  | .trackFlushed .. => 10
  | .gap .. => 11

/-- The content of a notice record. -/
def Notice.content : Notice → List Byte
  | .blankAtCamera n order expected => serialBytes n ++ serialBytes order ++ byteOf expected.mask
  | .changeover slot order first => byteOf slot.val ++ serialBytes order ++ serialBytes first
  | .profileRetired slot order => byteOf slot.val ++ serialBytes order
  | .batchClosed b => byteOf b.reason.code ++ batchBytes b.body
  | .backlog number order why good strays =>
    serialBytes number ++ serialBytes order ++ byteOf why.code ++ bytes4 good ++ bytes4 strays
  | .batchLost b => batchBytes b
  | .halt after added removed r permit =>
    byteOf after.mask ++ byteOf added.mask ++ byteOf removed.mask ++ byteOf r.code ++ flagByte permit
  | .runState before after cause active high next causes permit =>
    byteOf before.code ++ byteOf after.code ++ byteOf cause.code ++ optionalItem 1 (fun i : Fin 4 => byteOf i.val) active
      ++ optionalItem 4 serialBytes high ++ serialBytes next ++ byteOf causes.mask ++ flagByte permit
  | .register ch state n value => byteOf (regChannelCode ch) ++ byteOf state.code ++ serialBytes n ++ signed2 value
  | .satellite entry before after value round q =>
    byteOf entry.val ++ byteOf before.code ++ byteOf after.code ++ optionalItem 2 (fun v : Half => bytes2 v.toNat) value
      ++ serialBytes round ++ byteOf q.code
  | .trackFlushed oldest newest => serialBytes oldest ++ serialBytes newest
  | .gap lost => bytes2 lost

/-- A notice record: kind code, content length, content (R205). -/
def Notice.bytes (n : Notice) : List Byte := byteOf n.code ++ byteOf n.content.length ++ n.content

/-- R199: how many of the first `n` records of a queue fit whole in `room` bytes. -/
def recordsThatFit : Nat → Nat → List Notice → Nat
  | 0, _, _ => 0
  | _ + 1, _, [] => 0
  | n + 1, room, x :: xs => if x.bytes.length ≤ room then recordsThatFit n (room - x.bytes.length) xs + 1 else 0

/-! ## STATUS (R175 and the report rules of the blocks) -/

/-- The run-state controller's part (R175, R188). -/
def statusRun (s : State) : List Byte :=
  byteOf s.run.runState.code ++ byteOf s.run.causes.mask ++ flagByte s.run.permit ++ flagByte s.config.firstUnwritten.isNone
    ++ optionalItem 1 (fun x : ConfigSection => byteOf x.code) s.config.firstUnwritten

/-- Cycles per minute in two bytes; a value that does not fit is a free value (notes/assumptions/9.md). -/
def cyclesPerMinuteBytes (n : Nat) : List Byte := if n < 65536 then bytes2 n else bytes2 (Config.cpmField n).toNat

/-- The shaft counter's part (R15): cycle and angle are reported as 0 while not homed. -/
def statusShaft (s : State) : List Byte :=
  let cycle : Serial := if s.shaft.homed then cycleOfPosition s.pitch s.shaft.position else 0
  let angle := if s.shaft.homed then s.shaft.position % s.pitch else 0
  flagByte s.shaft.homed ++ bytes6 s.shaft.position ++ serialBytes cycle ++ bytes2 angle ++ bytes6 s.shaft.lastIndex
    ++ bytes2 s.shaft.slips ++ bytes2 s.shaft.speed ++ cyclesPerMinuteBytes s.shaft.cyclesPerMinute
    ++ byteOf s.shaft.motion.code ++ byteOf s.shaft.latch.kind.code ++ signed4 s.shaft.latch.detail

/-- The trigger code, serial and splice seen of an arm (R35, R204). The serial where the trigger is not SERIAL is laid out as 0, and
splice seen where it is not SPLICE as NO: the spec does not state them (notes/assumptions/26.md). -/
def triggerBytes : Trigger → List Byte
  | .next => byteOf 0 ++ bytes4 0 ++ flagByte false
  | .serial n => byteOf 1 ++ serialBytes n ++ flagByte false
  | .splice seen => byteOf 2 ++ bytes4 0 ++ flagByte seen

/-- The sections written in the staging area, as a set (R35). -/
def Staging.writtenMask (x : Staging) : Nat :=
  maskOf [x.header.isSome, x.print.isSome, x.patch.isSome, x.gum[0].isSome, x.gum[1].isSome, x.gum[2].isSome, x.gum[3].isSome]

/-- One item for each slot 0 to 3. -/
def perSlot (f : ProfileSlot → List Byte) (s : State) : List Byte :=
  f s.profiles.slots[0] ++ f s.profiles.slots[1] ++ f s.profiles.slots[2] ++ f s.profiles.slots[3]

/-- The profile store's part (R35). -/
def statusProfiles (s : State) : List Byte :=
  perSlot (fun x => byteOf x.state.code) s
    ++ perSlot (fun x => optionalItem 4 (fun p : Profile => serialBytes p.header.order) x.content) s
    ++ perSlot (fun x => optionalItem 2 (fun v : Half => bytes2 v.toNat) x.signature) s
    ++ optionalItem 7 (fun a : ChangeoverArm => byteOf a.slot.val ++ triggerBytes a.trigger) s.profiles.arm
    ++ byteOf (holderCode s.profiles.staging.holder) ++ byteOf s.profiles.staging.writtenMask
    ++ flagByte s.profiles.staging.failed

/-- The tracking queue's part (R54). -/
def statusTrack (s : State) : List Byte :=
  byteOf s.track.records.length ++ optionalItem 4 (fun b : Blank => serialBytes b.serial) s.track.records.head?
    ++ optionalItem 4 serialBytes s.track.highWater ++ serialBytes s.track.nextSerial ++ flagByte s.track.splicePending

/-- The output levels as a set (R203). -/
def Outputs.mask (o : Outputs) : Nat := maskOf [o.gum[0], o.gum[1], o.gum[2], o.gum[3], o.patch, o.camera, o.gate, o.kick]

/-- The open and close advance of a valve (R87). -/
def valveAdvances (s : State) (v : Fin 4) : List Byte :=
  bytes4 (advanceOf s.shaft.speed s.config.channels.valves[v.val].openLead)
    ++ bytes4 (advanceOf s.shaft.speed s.config.channels.valves[v.val].closeLead)

/-- The kick, present while it is ARMED (R87). -/
def kickBytes (x : ActionSlot) : List Byte :=
  optionalItem 10 (fun a : ActionSlot => serialBytes a.cycle ++ bytes6 a.target) (if x.phase = .armed then some x else none)

/-- The action scheduler's part (R87). -/
def statusSched (s : State) : List Byte :=
  byteOf s.sched.outputs.mask ++ byteOf s.sched.segments[0].length ++ byteOf s.sched.segments[1].length
    ++ byteOf s.sched.segments[2].length ++ byteOf s.sched.segments[3].length ++ flagByte s.sched.gateLevel
    ++ kickBytes (s.slot .kick) ++ valveAdvances s 0 ++ valveAdvances s 1 ++ valveAdvances s 2 ++ valveAdvances s 3
    ++ bytes4 (advanceOf s.shaft.speed s.config.channels.patch.lead)
    ++ bytes4 (advanceOf s.shaft.speed s.config.channels.camera.lead)
    ++ bytes4 (advanceOf s.shaft.speed s.config.channels.gateLead)
    ++ bytes4 (advanceOf s.shaft.speed s.config.channels.kick.lead)

/-- The register monitor's part (R103). -/
def statusRegister (s : State) : List Byte :=
  byteOf s.reg.print.state.code ++ signed2 s.reg.print.value ++ byteOf s.reg.patch.state.code ++ signed2 s.reg.patch.value

/-- The batch counter's part (R145); each item that may be absent is an optional item of its own (notes/assumptions/13.md). -/
def statusBatch (s : State) : List Byte :=
  let b := s.openBatch.body
  serialBytes b.number ++ optionalItem 1 (fun o : BatchOrder => byteOf o.slot.val) b.order
    ++ optionalItem 4 (fun o : BatchOrder => serialBytes o.order) b.order
    ++ optionalItem 2 (fun o : BatchOrder => bytes2 o.target) b.order
    ++ optionalItem 2 (fun o : BatchOrder => bytes2 o.overrun) b.order ++ bytes4 b.good ++ bytes4 b.rejects ++ bytes4 b.strays
    ++ optionalItem 4 (fun x : SerialSpan => serialBytes x.first) b.span
    ++ optionalItem 4 (fun x : SerialSpan => serialBytes x.last) b.span ++ flagByte b.held ++ flagByte b.mixed
    ++ byteOf s.openBatch.pending.code ++ byteOf s.batch.queue.length
    ++ optionalItem 4 (fun c : ClosedBatch => serialBytes c.body.number) s.batch.queue.head?
    ++ optionalItem 4 (fun c : ClosedBatch => serialBytes c.body.number) s.batch.queue.getLast?

/-- The consequences in force as a set: HOLD, PATCH_INHIBIT, GUM_INHIBIT (R159). -/
def State.forceMask (s : State) : Nat := maskOf [s.inForce .hold, s.inForce .patchInhibit, s.inForce .gumInhibit]

/-- The satellite poller's part (R159). -/
def statusSatellite (s : State) : List Byte :=
  flagByte s.sat.running ++ serialBytes s.sat.round ++ (allEntries.flatMap fun n => byteOf (s.entry n).state.code)
    ++ byteOf s.forceMask

/-- The STATUS answer, in the order of R175. -/
def statusBytes (s : State) : List Byte :=
  statusRun s ++ statusShaft s ++ statusProfiles s ++ statusTrack s ++ statusSched s ++ statusRegister s ++ statusBatch s
    ++ statusSatellite s

/-- The SATELLITE_READ answer (R158). -/
def satelliteBytes (s : State) (n : Fin 8) : List Byte :=
  let e := s.entry n
  let c := s.satConfig n
  byteOf n.val ++ byteOf e.state.code ++ optionalItem 2 (fun v : Half => bytes2 v.toNat) e.value
    ++ optionalItem 4 serialBytes e.lastGood ++ byteOf e.dwell ++ byteOf e.failure
    ++ flagByte (s.entryInForce c.consequence n) ++ byteOf c.consequence.code
    ++ flagByte c.enable ++ serialBytes s.sat.round ++ flagByte s.sat.running

end Sys2Proof.Machine
end

