-- ==== Sys2Proof/Machine/Events.lean ====
section
/-! DEFINITION. The meanings of the events: hardware reset, the shaft, the points, the pulses, the satellites. A step that stands due
is taken; one that does not stand due is no event and changes nothing (notes/assumptions/5.md). -/

namespace Sys2Proof.Machine

/-- The outcome of every command: the next state. -/
abbrev Next := Host.Outcome State Fault Refusal

/-! ## Hardware reset (R176) -/

/-- R201: a transfer open at the reset is ignored until its chip select becomes inactive. -/
def Port.hardwareReset (p : Port) : Port :=
  match p.transfer with
  | .idle => Port.reset
  | .shifting _ => { Port.reset with transfer := .ignored }
  | .ignored => { Port.reset with transfer := .ignored }

/-- HARDWARE_RESET: every block takes its reset state, and the quadrature state the levels of the first sample (R16). The WEB_OK
level, the free values used and the commands waiting are not the part's to reset. -/
def execHardwareReset (encA encB : Bool) (s : State) : Next :=
  .next
    { State.reset with
      shaft := { Shaft.reset with quadA := encA, quadB := encB }
      ports := ⟨s.ports.port1.hardwareReset, s.ports.port2.hardwareReset, s.ports.port3.hardwareReset⟩
      webOk := s.webOk
      freeCount := s.freeCount
      pending := s.pending }

/-! ## Shaft (chapter 1) -/

/-- ENCODER_COUNT (R1): a sample of ENC_A and ENC_B, WEB_OK standing at `webOk`. -/
def execEncoderCount (encA encB webOk : Bool) (s : State) : Next := .next (sampleEncoder encA encB { s with webOk := webOk })

/-- QUADRATURE_ERROR_SAMPLE (R1): a sample in which both inputs differ from the quadrature state. -/
def execQuadratureErrorSample (s : State) : Next := .next (quadratureError (s.setQuadrature (!s.shaft.quadA) (!s.shaft.quadB)))

/-- INDEX_EDGE (R4), WEB_OK standing at `webOk`. -/
def execIndexEdge (webOk : Bool) (s : State) : Next := .next (takeIndexEdge { s with webOk := webOk })

/-- INDEX_MISSING (R7): the position stands 2 × P counts forward of the last index position after a forward count. -/
def execIndexMissing (s : State) : Next :=
  .next (if s.indexIsMissing && s.shaft.lastDir == .forward then missingIndexFault s else s)

/-- BLANK_CREATION (R9, R43): the boundary stands passed; the targets the creation arms at or behind the position fire with it. -/
def execBlankCreation (s : State) : Next := .next (if s.creationDue then settleEvent (createBlank s) else s)

/-- TICK (R11): time passes to the next 1 ms tick. -/
def execTick (s : State) : Next := .next (passTick s)

/-- REST_DWELL_EXPIRY (R13): the rest counter stands at the rest dwell while the flag is MOVING. -/
def execRestDwellExpiry (s : State) : Next := .next (if s.restDwellReached then restDwellExpires s else s)

/-! ## The points (R72 to R81) -/

/-- The slot of a point is void (R59). -/
def State.isVoid (s : State) (pt : TimedPoint) : Bool := (s.slot pt).angle.isNone

/-- Take the step of a point that is not void. -/
def fireFilled (pt : TimedPoint) (s : State) : State := if s.isVoid pt then s else firePoint pt s

/-- WEB_SAMPLE (R46, R72): WEB_OK is read at `webOk`. -/
def execWebSample (webOk : Bool) (s : State) : Next := .next (fireFilled .webSample { s with webOk := webOk })

/-- The window open point of a channel (R57). -/
def windowOpenPoint : RegChannel → TimedPoint
  | .print => .printOpen
  | .patch => .patchOpen

/-- The window close point of a channel (R57). -/
def windowClosePoint : RegChannel → TimedPoint
  | .print => .printClose
  | .patch => .patchClose

/-- WINDOW_OPEN (R73, R88). -/
def execWindowOpen (ch : RegChannel) (s : State) : Next := .next (fireFilled (windowOpenPoint ch) s)

/-- WINDOW_CLOSE (R73, R91). -/
def execWindowClose (ch : RegChannel) (s : State) : Next := .next (fireFilled (windowClosePoint ch) s)

/-- CAPTURE_EDGE (R89). -/
def execCaptureEdge (ch : RegChannel) (s : State) : Next := .next (captureEdge ch s)

/-- SPLICE_EDGE (R48, R49). -/
def execSpliceEdge (s : State) : Next := .next (spliceEdge s)

/-- PATCH_KNIFE (R74). -/
def execPatchKnife (s : State) : Next := .next (fireFilled .patchKnife s)

/-- VALVE_ON (R80), then the valve outputs (R82). -/
def execValveOn (v k : Fin 4) (s : State) : Next := .next (setValveOutputs (fireFilled (.valveOn v k) s))

/-- VALVE_OFF (R81), then the valve outputs (R82). -/
def execValveOff (v k : Fin 4) (s : State) : Next := .next (setValveOutputs (fireFilled (.valveOff v k) s))

/-- VOID_SLOT_CONSUMED (R59), then the valve outputs (R82): the same event may fire a segment of the next cycle. -/
def execVoidSlotConsumed (pt : TimedPoint) (s : State) : Next :=
  .next (if s.isVoid pt then setValveOutputs (firePoint pt s) else s)

/-- CAMERA (R75). -/
def execCamera (s : State) : Next := .next (fireFilled .camera s)

/-- GATE_DECISION (R76, R114 to R119). -/
def execGateDecision (s : State) : Next := .next (fireFilled .gate s)

/-- COUNT_POINT (R77, R131). -/
def execCountPoint (s : State) : Next := .next (fireFilled .count s)

/-- KICK (R79). -/
def execKick (s : State) : Next := .next (fireFilled .kick s)

/-- PULSE_END (R83): the time base stands at or past the channel's end time. -/
def execPulseEnd (ch : PulseChannel) (s : State) : Next :=
  .next
    (match s.sched.pulse ch with
    | none => s
    | some t => if t ≤ s.time then endPulse ch s else s)

/-! ## Sensor edges of the register monitor and satellites (chapters 5 and 8) -/

/-- ROUND_START (R148): the moment of the next round stands reached. -/
def execRoundStart (s : State) : Next :=
  .next
    (match s.roundAt with
    | none => s
    | some t => if t ≤ s.time then startRound s else s)

/-- TRANSACTION_ANSWER (R150): the two data bytes, most significant first. -/
def execTransactionAnswer (hi lo : Byte) (s : State) : Next :=
  .next (answerTransaction hi lo s)

/-- NO_ACKNOWLEDGE (R151): whichever byte it was, the transaction ends at once as a no-answer. -/
def execNoAcknowledge (byte : NackByte) (s : State) : Next := .next (refuseTransaction byte s)

/-- TRANSACTION_TIMEOUT (R151): 1,000 µs since the transaction's start stand reached. -/
def execTransactionTimeout (s : State) : Next :=
  .next
    (match s.timeoutAt with
    | none => s
    | some t => if t ≤ s.time then timeOutTransaction s else s)

/-! ## Transfers (chapter 11) -/

/-- TRANSFER_BEGIN (R189, R190, R201). -/
def execTransferBegin (p : PortId) (mosi : List Byte) (s : State) : Next := .next (s.setPort p ((s.port p).shiftIn mosi))

/-- FRAME (R191): a transfer ends with a malformed frame; one without a whole byte is no event (R189). -/
def execFrame (p : PortId) (bytes : List Byte) (s : State) : Next := .next (endWithAnswer p bytes malformed frameResponse s)

/-- UNKNOWN (R191): a transfer ends with a complete frame whose code is not in the command index. -/
def execUnknown (p : PortId) (bytes : List Byte) (s : State) : Next :=
  .next (endWithAnswer p bytes unknownCode unknownResponse s)

end Sys2Proof.Machine
end

