-- ==== Sys2Proof/Machine/PortCommands.lean ====
section
/-! DEFINITION. The meanings of the commands of the ports chapter (chapter 11): NOP, IDENTIFY, SUBSCRIBE, NOTICE_READ; and of the
read commands of the tracking queue, the register monitor and the satellite poller. -/

namespace Sys2Proof.Machine

/-- NOP (R192): the transfer collects the pending response and leaves none; the payload is ignored. -/
def execNop (p : PortId) (tag : Byte) (payload : List Byte) (s : State) : Next :=
  .next
    (let ended := endTransfer p (commandFrame 0x00 tag payload) s
     match ended.bytes with
     | none => ended.part
     | some _ =>
       if payload.length ≤ commandPayloadLimit then ended.part else respond p ⟨0x00, tag, .frame, .none, []⟩ ended.part)

/-- The IDENTIFY answer of a port (R200): part code 448, revision 1, the port number and the two payload limits. -/
def identifyBytes (p : PortId) : List Byte :=
  bytes2 448 ++ byteOf 1 ++ byteOf (portNumber p) ++ byteOf commandPayloadLimit ++ byteOf responsePayloadLimit

/-- IDENTIFY (R200). -/
def execIdentify (p : PortId) (tag : Byte) (payload : List Byte) (s : State) : Next :=
  .next (takeCommand p 0x01 tag payload (withLength 0 payload (answerOk (identifyBytes p))) s)

/-- R198: the port's subscription becomes the set a mask names. -/
def subscribe (p : PortId) (mask : Nat) (s : State) : Answer :=
  answerOk (bytes2 (noticeKindsOf mask).mask) (s.setPort p { s.port p with subscription := noticeKindsOf mask })

/-- SUBSCRIBE (R198). -/
def execSubscribe (p : PortId) (tag : Byte) (payload : List Byte) (s : State) : Next :=
  .next (takeCommand p 0x02 tag payload (withLength 2 payload (subscribe p (u16At payload 0))) s)

/-- The bytes NOTICE_READ leaves for records after its three items (R199). -/
def noticeRoom : Nat := 246

/-- R199: the oldest records are removed and returned, as many as `n` (8 at most) allows and as fit. -/
def readNotices (p : PortId) (n : Nat) (s : State) : Answer :=
  let queue := (s.port p).notices
  let k := recordsThatFit (Nat.min n 8) noticeRoom queue
  let rest := queue.drop k
  answerOk
    (byteOf k ++ byteOf rest.length ++ bytes2 (s.port p).lost ++ (queue.take k).flatMap Notice.bytes)
    (if k = 0 then s else s.setPort p ((s.port p).withNotices rest))

/-- NOTICE_READ (R199). -/
def execNoticeRead (p : PortId) (tag : Byte) (payload : List Byte) (s : State) : Next :=
  .next (takeCommand p 0x03 tag payload (withLength 1 payload (readNotices p (u8At payload 0))) s)

/-- STATUS (R175). -/
def execStatus (p : PortId) (tag : Byte) (payload : List Byte) (s : State) : Next :=
  .next (takeCommand p 0x10 tag payload (withLength 0 payload (fun s => answerOk (statusBytes s) s)) s)

/-- R53: the record of a serial, UNKNOWN_SERIAL or GONE. -/
def readBlank (n : Serial) (s : State) : Answer :=
  match s.track.lookup n with
  | .found b => answerOk (blankBytes b) s
  | .unknownSerial => refuse .unknownSerial s
  | .gone => refuse .gone s

/-- TRACK_READ (R53). -/
def execTrackRead (p : PortId) (tag : Byte) (payload : List Byte) (s : State) : Next :=
  .next (takeCommand p 0x30 tag payload (withLength 4 payload (readBlank (u32At payload 0))) s)

/-- REGISTER_READ (R102). -/
def execRegisterRead (p : PortId) (tag : Byte) (payload : List Byte) (s : State) : Next :=
  .next (takeCommand p 0x38 tag payload (withLength 0 payload (fun s => answerOk (registerBytes s) s)) s)

/-- The entry an entry number names (R158). -/
def entryNumber (n : Nat) : Option (Fin 8) := if h : n < 8 then some ⟨n, h⟩ else none

/-- R158: one sample entry in full. -/
def readSatellite (n : Nat) (s : State) : Answer :=
  match entryNumber n with
  | none => invalid .none 0 1 s
  | some i => answerOk (satelliteBytes s i) s

/-- SATELLITE_READ (R158). -/
def execSatelliteRead (p : PortId) (tag : Byte) (payload : List Byte) (s : State) : Next :=
  .next (takeCommand p 0x50 tag payload (withLength 1 payload (readSatellite (u8At payload 0))) s)

end Sys2Proof.Machine
end

