-- ==== Sys2Proof/Machine/RunCommands.lean ====
section
/-! DEFINITION. The meanings of the run-state controller's commands (chapters 9 and 10): START, STOP, CLEAR_HALT, RUN_RESET,
CONFIG_WRITE, CONFIG_READ. -/

namespace Sys2Proof.Machine

/-! ## START (R163, R187) -/

/-- The twelve cross-field checks in the order of R187. -/
def MachineConfig.startChecks (c : MachineConfig) : List Bool :=
  [decide (c.stations.patch < c.stations.gate),
   !c.channels.valves[0].enable || decide (c.stations.gum[0] < c.stations.gate),
   !c.channels.valves[1].enable || decide (c.stations.gum[1] < c.stations.gate),
   !c.channels.valves[2].enable || decide (c.stations.gum[2] < c.stations.gate),
   !c.channels.valves[3].enable || decide (c.stations.gum[3] < c.stations.gate),
   decide (c.stations.camera < c.stations.gate),
   decide (c.stations.gate < c.stations.delivery),
   decide (c.angles.webSample < c.shaft.pitch),
   decide (c.angles.camera < c.shaft.pitch),
   decide (c.angles.gate < c.shaft.pitch),
   decide (c.angles.count < c.shaft.pitch),
   decide (c.angles.kick < c.shaft.pitch)]

/-- R163, case 7: START is taken: the slot is ACTIVE, polling RUNNING and the run state HOMING. -/
def takeStart (i : Fin 4) (s : State) : State :=
  let ready := { s with profiles := { s.profiles.setState i .active with arm := none }, sat := s.sat.begin s.time }
  postRunState s.run.runState .start (ready.setRun .homing s.run.causes)

/-- R163: START naming a slot number, the first case that applies deciding the answer. -/
def startRun (n : Nat) (s : State) : Answer :=
  match slotOf n with
  | none => invalid .none 0 1 s
  | some i =>
    if s.run.runState ≠ .off then refuse .state s
    else
      match s.config.firstUnwritten with
      | some x => invalid .configSection x.code 0 s
      | none =>
        match firstFailing s.config.startChecks with
        | some k => invalid .startCheck k 0 s
        | none =>
          if (s.profiles.slot i).state ≠ .ready then refuse .inUse s
          else
            match s.profiles.firstUnfit s.pitch i with
            | some x => invalid .profileSection x.code 0 s
            | none => answerOk (byteOf i.val ++ serialBytes s.track.nextSerial) (takeStart i s)

/-- START (R163). -/
def execStart (p : PortId) (tag : Byte) (payload : List Byte) (s : State) : Next :=
  .next (takeCommand p 0x11 tag payload (withLength 1 payload (startRun (u8At payload 0))) s)

/-! ## STOP and CLEAR_HALT (R170, R171) -/

/-- R170: STOP hands OPERATOR; the answer carries the set and PERMIT after the command. -/
def stopRun (s : State) : Answer :=
  let stopped := handCause .operator s
  answerOk (byteOf stopped.run.causes.mask ++ flagByte stopped.run.permit) stopped

/-- STOP (R170). -/
def execStop (p : PortId) (tag : Byte) (payload : List Byte) (s : State) : Next :=
  .next (takeCommand p 0x12 tag payload (withLength 0 payload stopRun) s)

/-- R171: the causes a CLEAR_HALT naming `named` removes: those in the set whose condition is met. -/
def removedCauses (named : CauseSet) (s : State) : CauseSet :=
  { operator := named.operator && s.run.causes.operator
    encoder := named.encoder && s.run.causes.encoder
    backlog := named.backlog && s.run.causes.backlog && !s.openBatch.body.held
    satellite := named.satellite && s.run.causes.satellite && !s.holdInForce
    register := named.register && s.run.causes.register }

/-- R171, R169: the causes are removed, with one HALT notice when there were any. -/
def removeCauses (removed : CauseSet) (s : State) : State :=
  if removed.isEmpty then s else postHalt s.run.causes (s.setRun s.run.runState (s.run.causes.minus removed))

/-- R171: CLEAR_HALT is refused MOVING unless the machine is at rest. -/
def clearHalt (named : CauseSet) (s : State) : Answer :=
  if s.shaft.motion = .moving then refuse .moving s
  else
    let cleared := removeCauses (removedCauses named s) s
    answerOk (byteOf cleared.run.causes.mask ++ byteOf cleared.run.runState.code ++ flagByte cleared.run.permit) cleared

/-- CLEAR_HALT (R171). -/
def execClearHalt (p : PortId) (tag : Byte) (payload : List Byte) (s : State) : Next :=
  .next (takeCommand p 0x13 tag payload (withLength 1 payload (clearHalt (causeSetOf (u8At payload 0)))) s)

/-! ## RUN_RESET (R173) -/

/-- R55: the tracking queue's part: flushed, no high-water cycle, splice pending NO, the next serial kept. -/
def runResetTrack (s : State) : State :=
  let flushed := flushRecords s
  { flushed with track := { flushed.track with highWater := none, splicePending := false, boundaryPassed := false } }

/-- R85: the scheduler's part: slots UNARMED, segments closed, pulses ended, the gate level inactive, all outputs inactive. -/
def runResetSched (s : State) : State :=
  let left := leaveLive s
  { left with sched :=
    { left.sched with
      patchPulse := none, cameraPulse := none, kickPulse := none, gateLevel := false, outputs := Outputs.inactive } }

/-- R16: the shaft counter's part: homed NO, the position held modulo 2^48, everything else kept. -/
def Shaft.runReset (x : Shaft) : Shaft := { x with homed := false, position := x.position % 2 ^ 48 }

/-- R173: every block's part in turn; TRACK_FLUSHED is posted before BATCH_CLOSED or BATCH_LOST. -/
def runResetBlocks (s : State) : State :=
  let off := s.setRun .off CauseSet.empty
  let quiet := { off with shaft := off.shaft.runReset, profiles := off.profiles.runReset, reg := RegisterMonitor.reset }
  let emptied := runResetBatch (runResetSched (runResetTrack quiet))
  { emptied with sat := emptied.sat.halt }

/-- R173: then the controller's own notices: HALT when the set was not empty, and RUN_STATE. -/
def resetRun (s : State) : State :=
  let done := runResetBlocks s
  postRunState s.run.runState .runReset (if s.run.causes.isEmpty then done else postHalt s.run.causes done)

def BatchFate.code : BatchFate → Nat
  | .closed => 0
  | .lost => 1
  | .discarded => 2

/-- R173: RUN_RESET is refused MOVING unless the machine is at rest. -/
def runReset (s : State) : Answer :=
  if s.shaft.motion = .moving then refuse .moving s
  else
    answerOk
      (byteOf s.run.runState.code ++ byteOf s.track.records.length ++ byteOf s.batch.fate.code
        ++ serialBytes s.openBatch.body.number ++ byteOf s.run.causes.mask ++ serialBytes s.track.nextSerial)
      (resetRun s)

/-- RUN_RESET (R173). -/
def execRunReset (p : PortId) (tag : Byte) (payload : List Byte) (s : State) : Next :=
  .next (takeCommand p 0x14 tag payload (withLength 0 payload runReset) s)

/-! ## Configuration (R184, R186) -/

/-- R184, cases 2 to 5, for a section that is known. An enumeration code outside its list is a failing field like any other, item kind
CONFIG_FIELD, where R203 by itself would give NONE (notes/assumptions/27.md). -/
def writeSection (x : ConfigSection) (payload : List Byte) (s : State) : Answer :=
  let content := payload.drop 1
  if s.run.runState ≠ .off then refuse .state s
  else if content.length ≠ x.length then invalid .length 0 0 s
  else
    match firstFailing (x.checks s.config.checkPitch content) with
    | some k => invalid .configField x.code k s
    | none =>
      let written := { s with config := s.config.write x content }
      answerOk
        (byteOf x.code ++ optionalItem 1 (fun y : ConfigSection => byteOf y.code) written.config.firstUnwritten) written

/-- R184. A payload with no byte names no section: it has the wrong length, and is judged at the place of case 3
(notes/assumptions/15.md). -/
def writeConfig (payload : List Byte) (s : State) : Answer :=
  match payload with
  | [] => if s.run.runState ≠ .off then refuse .state s else invalid .length 0 0 s
  | code :: _ =>
    match configSectionOf code.toNat with
    | none => invalid .none 0 1 s
    | some x => writeSection x payload s

/-- CONFIG_WRITE (R184). -/
def execConfigWrite (p : PortId) (tag : Byte) (payload : List Byte) (s : State) : Next :=
  .next (takeCommand p 0x18 tag payload (writeConfig payload) s)

/-- R186. -/
def readConfig (n : Nat) (s : State) : Answer :=
  match configSectionOf n with
  | none => invalid .none 0 1 s
  | some x => answerOk (byteOf x.code ++ flagByte s.config.written[x.index.val] ++ s.config.sectionBytes x) s

/-- CONFIG_READ (R186). -/
def execConfigRead (p : PortId) (tag : Byte) (payload : List Byte) (s : State) : Next :=
  .next (takeCommand p 0x19 tag payload (withLength 1 payload (readConfig (u8At payload 0))) s)

end Sys2Proof.Machine
end

