-- ==== Sys2Proof/Machine/ProfileCommands.lean ====
section
/-! DEFINITION. The meanings of the profile store's commands (chapter 2). -/

namespace Sys2Proof.Machine

/-- Replace the staging area. -/
def State.setStaging (s : State) (x : Staging) : State := { s with profiles := { s.profiles with staging := x } }

/-- The staging area. -/
def State.staging (s : State) : Staging := s.profiles.staging

/-! ## Staging (R22 to R25) -/

/-- R22: the area is emptied and the caller becomes its holder, unless another port holds it. -/
def openStaging (p : PortId) (s : State) : Answer :=
  if s.staging.holder = none ∨ s.staging.holder = some p then
    answerOk [] (s.setStaging { Staging.free with holder := some p })
  else refuse .held s

/-- STAGE_OPEN (R22). -/
def execStageOpen (p : PortId) (tag : Byte) (payload : List Byte) (s : State) : Next :=
  .next (takeCommand p 0x20 tag payload (withLength 0 payload (openStaging p)) s)

/-- The staging area with a section stored, or none where the content fails its check (R17 to R20). -/
def Staging.store (x : Staging) (pitch : Nat) (part : ProfileSection) (content : List Byte) : Option Staging :=
  match part with
  | .header => (headerOf content).map fun h => { x with header := some h }
  | .print => if (printOf content).fits pitch then some { x with print := some (printOf content) } else none
  | .patch => if (patchOf content).fits pitch then some { x with patch := some (patchOf content) } else none
  | .gum v =>
    if gumFits pitch (gumOf content) then some { x with gum := x.gum.set v.val (some (gumOf content)) } else none

/-- R23, case 3: the write fails and the load is poisoned. -/
def failStaging (kind : InvalidKind) (item field : Nat) (s : State) : Answer :=
  invalid kind item field (s.setStaging { s.staging with failed := true })

/-- R23, cases 3 and 4, for a section that is known. An enumeration code outside its list in a HEADER fails the check of R17, item kind
PROFILE_SECTION, where R203 by itself would give NONE (notes/assumptions/27.md). -/
def storeSection (part : ProfileSection) (content : List Byte) (s : State) : Answer :=
  if content.length ≠ part.length content then failStaging .length 0 0 s
  else
    match s.staging.store s.config.checkPitch part content with
    | none => failStaging .profileSection part.code 0 s
    | some x => answerOk [] (s.setStaging x)

/-- R23, cases 3 and 4. A payload with no byte has the wrong length (notes/assumptions/15.md). -/
def writeStaged (payload : List Byte) (s : State) : Answer :=
  match payload with
  | [] => failStaging .length 0 0 s
  | code :: content =>
    match profileSectionOf code.toNat with
    | none => failStaging .none 0 1 s
    | some part => storeSection part content s

/-- R23: the holder and the failed flag come first. -/
def writeStaging (p : PortId) (payload : List Byte) (s : State) : Answer :=
  if s.staging.holder ≠ some p then refuse .held s
  else if s.staging.failed then refuse .stagingFailed s
  else writeStaged payload s

/-- STAGE_WRITE (R23). -/
def execStageWrite (p : PortId) (tag : Byte) (payload : List Byte) (s : State) : Next :=
  .next (takeCommand p 0x21 tag payload (writeStaging p payload) s)

/-- A slot is ACTIVE, STAGED or RETIRING (R21). -/
def SlotState.inUse : SlotState → Bool
  | .empty => false
  | .ready => false
  | .active => true
  | .staged => true
  | .retiring => true

/-- R24: the committed slot: content, signature, READY. -/
def committedSlot (content : Profile) : ProfileSlot := ⟨.ready, some content, some (crc16 content.image)⟩

/-- R24, case 6: the sections are copied into slot `i`, it is signed and READY, and the area is released. -/
def commitInto (i : Fin 4) (content : Profile) (s : State) : Answer :=
  answerOk (byteOf i.val ++ bytes2 (crc16 content.image).toNat)
    ({ s with profiles := s.profiles.setSlot i (committedSlot content) }.setStaging Staging.free)

/-- R24, cases 4 to 6, for a slot in range. -/
def commitTo (i : Fin 4) (s : State) : Answer :=
  if (s.profiles.slot i).state.inUse then refuse .inUse s
  else
    match s.staging.header, s.staging.print with
    | none, _ => invalid .profileSection ProfileSection.header.code 0 s
    | some _, none => invalid .profileSection ProfileSection.print.code 0 s
    | some h, some x => commitInto i ⟨h, x, s.staging.patch, s.staging.gum⟩ s

/-- R24: the holder and failed-flag checks come before the slot range. -/
def commitStaging (p : PortId) (n : Nat) (s : State) : Answer :=
  if s.staging.holder ≠ some p then refuse .held s
  else if s.staging.failed then refuse .stagingFailed s
  else
    match slotOf n with
    | none => invalid .none 0 1 s
    | some i => commitTo i s

/-- STAGE_COMMIT (R24). -/
def execStageCommit (p : PortId) (tag : Byte) (payload : List Byte) (s : State) : Next :=
  .next (takeCommand p 0x22 tag payload (withLength 1 payload (commitStaging p (u8At payload 0))) s)

/-- R25: the holder releases the area. -/
def dropStaging (p : PortId) (s : State) : Answer :=
  if s.staging.holder = some p then answerOk [] (s.setStaging Staging.free) else refuse .held s

/-- STAGE_DROP (R25). -/
def execStageDrop (p : PortId) (tag : Byte) (payload : List Byte) (s : State) : Next :=
  .next (takeCommand p 0x23 tag payload (withLength 0 payload (dropStaging p)) s)

/-! ## Slots (R26, R27) -/

/-- A command's slot number: outside 0 to 3 it is refused INVALID before any other check (R21). -/
def withSlot (n : Nat) (body : Fin 4 → State → Answer) (s : State) : Answer :=
  match slotOf n with
  | none => invalid .none 0 1 s
  | some i => body i s

/-- R26: an EMPTY or READY slot becomes EMPTY. -/
def eraseSlot (i : Fin 4) (s : State) : Answer :=
  if (s.profiles.slot i).state.inUse then refuse .inUse s
  else answerOk [] { s with profiles := s.profiles.setSlot i ⟨.empty, none, none⟩ }

/-- SLOT_ERASE (R26). -/
def execSlotErase (p : PortId) (tag : Byte) (payload : List Byte) (s : State) : Next :=
  .next (takeCommand p 0x24 tag payload (withLength 1 payload (withSlot (u8At payload 0) eraseSlot)) s)

/-- R26: one section of a slot with the slot's state; an absent section has a presence byte 0 and no content. A section code out of
range is refused before the slot is looked at (notes/assumptions/15.md). -/
def readSlot (code : Nat) (i : Fin 4) (s : State) : Answer :=
  match profileSectionOf code with
  | none => invalid .none 0 2 s
  | some part =>
    match (s.profiles.slot i).content with
    | none => refuse .empty s
    | some c =>
      answerOk (byteOf (s.profiles.slot i).state.code ++ byteOf part.code ++ presentBytes (c.sectionBytes part)) s

/-- SLOT_READ (R26). -/
def execSlotRead (p : PortId) (tag : Byte) (payload : List Byte) (s : State) : Next :=
  .next (takeCommand p 0x25 tag payload (withLength 2 payload (withSlot (u8At payload 0) (readSlot (u8At payload 1)))) s)

/-- R27: a slot's state, order number and signature. -/
def readSignature (i : Fin 4) (s : State) : Answer :=
  match (s.profiles.slot i).content with
  | none => refuse .empty s
  | some c =>
    answerOk
      (byteOf (s.profiles.slot i).state.code ++ serialBytes c.header.order
        ++ bytes2 ((s.profiles.slot i).signature.getD 0).toNat) s

/-- SLOT_SIGNATURE (R27). -/
def execSlotSignature (p : PortId) (tag : Byte) (payload : List Byte) (s : State) : Next :=
  .next (takeCommand p 0x26 tag payload (withLength 1 payload (withSlot (u8At payload 0) readSignature)) s)

/-! ## Changeovers (R29, R32) -/

/-- The trigger a trigger code and a serial name (R203). -/
def triggerOf (code : Nat) (n : Serial) : Option Trigger :=
  match code with
  | 0 => some .next
  | 1 => some (.serial n)
  | 2 => some (.splice false)
  | _ => none

/-- R29, case 5: a SERIAL trigger whose serial is not newer than the newest serial. -/
def Trigger.notNewer (t : Trigger) (newest : Serial) : Bool :=
  match t with
  | .serial n => !serialNewer n newest
  | _ => false

/-- Some slot is STAGED or RETIRING (R29, case 3). -/
def Profiles.busy (p : Profiles) : Bool :=
  ([0, 1, 2, 3] : List (Fin 4)).any fun i => (p.slot i).state == .staged || (p.slot i).state == .retiring

/-- R29, cases 2 to 7. -/
def armChangeover (t : Trigger) (i : Fin 4) (s : State) : Answer :=
  if s.run.runState = .off then refuse .state s
  else if s.profiles.busy then refuse .busy s
  else if (s.profiles.slot i).state ≠ .ready then refuse .inUse s
  else if t.notNewer (s.track.nextSerial - 1) then invalid .none 0 3 s
  else
    match s.profiles.firstUnfit s.pitch i with
    | some x => invalid .profileSection x.code 0 s
    | none => answerOk [] { s with profiles := { s.profiles.setState i .staged with arm := some ⟨i, t⟩ } }

/-- R29, case 1: the slot number, then the trigger kind. -/
def armTrigger (t : Option Trigger) (i : Fin 4) (s : State) : Answer :=
  match t with
  | none => invalid .none 0 2 s
  | some t => armChangeover t i s

/-- CHANGEOVER_ARM (R29). -/
def execChangeoverArm (p : PortId) (tag : Byte) (payload : List Byte) (s : State) : Next :=
  .next (takeCommand p 0x28 tag payload
    (withLength 6 payload
      (withSlot (u8At payload 0) (armTrigger (triggerOf (u8At payload 1) (u32At payload 2))))) s)

/-- The slot in state STAGED, if any (R21). -/
def Profiles.staged (p : Profiles) : Option (Fin 4) :=
  [0, 1, 2, 3].find? fun i : Fin 4 => (p.slot i).state == .staged

/-- R32: the staged slot returns to READY and the arm is cleared. -/
def cancelChangeover (s : State) : Answer :=
  match s.profiles.staged with
  | none => refuse .empty s
  | some i => answerOk (byteOf i.val) { s with profiles := { s.profiles.setState i .ready with arm := none } }

/-- CHANGEOVER_CANCEL (R32). -/
def execChangeoverCancel (p : PortId) (tag : Byte) (payload : List Byte) (s : State) : Next :=
  .next (takeCommand p 0x29 tag payload (withLength 0 payload cancelChangeover) s)

end Sys2Proof.Machine
end

