-- ==== Sys2Proof/Machine/BatchCommands.lean ====
section
/-! DEFINITION. The meanings of VERDICT (chapter 6) and of the batch counter's commands (chapter 7). -/

namespace Sys2Proof.Machine

/-! ## VERDICT (R107 to R110) -/

/-- The verdict result a code names (R203). -/
def judgementOf (n : Nat) : Option Judgement :=
  match n with
  | 0 => some .pass
  | 1 => some .reject
  | _ => none

/-- R110, R204: the answer payload where no record was found: the two items after the found flag are 0. -/
def verdictUnfound (n : Serial) (source : Nat) : List Byte :=
  serialBytes n ++ byteOf source ++ flagByte false ++ byteOf 0 ++ byteOf 0

/-- R110, R204: the answer payload from a found record. -/
def verdictFound (n : Serial) (source : Nat) (o : GateOutcome) (stored : Bool) : List Byte :=
  serialBytes n ++ byteOf source ++ flagByte true ++ byteOf o.code ++ flagByte stored

/-- R107, cases 4 to 8: the record takes the verdict list of the outcome. -/
def judgeBlank (b : Blank) (i : Fin 4) (result : Judgement) (code : Byte) (s : State) : Answer :=
  let o := verdictOutcome (s.expectedOf b) b i result code
  ⟨s.updateBlank b.serial (fun x => { x with verdicts := o.verdicts }), o.result, o.reason,
    verdictFound b.serial i.val b.outcome o.stored⟩

/-- R107: VERDICT for serial `n`; the first case that applies. -/
def takeVerdict (n : Serial) (source result : Nat) (code : Byte) (s : State) : Answer :=
  match slotOf source, judgementOf result with
  | some i, some r =>
    match s.track.lookup n with
    | .unknownSerial => ⟨s, .refused, .unknownSerial, verdictUnfound n source⟩
    | .gone => ⟨s, .late, .gone, verdictUnfound n source⟩
    | .found b => judgeBlank b i r code s
  | _, _ => ⟨s, .refused, .invalid, verdictUnfound n source⟩

/-- VERDICT (R107). -/
def execVerdict (p : PortId) (tag : Byte) (payload : List Byte) (s : State) : Next :=
  .next (takeCommand p 0x40 tag payload
    (withLength 7 payload
      (takeVerdict (u32At payload 0) (u8At payload 4) (u8At payload 5) (payload.getD 6 0))) s)

/-! ## The batch counter's commands (R130, R138, R139) -/

/-- R130: close pending becomes COMMAND unless it is already set; an open batch without a good blank is refused EMPTY. -/
def requestClose (s : State) : Answer :=
  let b := s.openBatch
  if b.body.good = 0 then refuse .empty s
  else
    let why := if b.pending = .none then .command else b.pending
    answerOk (serialBytes b.body.number ++ byteOf why.code) (s.setOpenBatch { b with pending := why })

/-- BATCH_CLOSE (R130). -/
def execBatchClose (p : PortId) (tag : Byte) (payload : List Byte) (s : State) : Next :=
  .next (takeCommand p 0x48 tag payload (withLength 0 payload requestClose) s)

/-- R138: the oldest closed record and the queue fill. -/
def peekBatch (s : State) : Answer :=
  match s.batch.queue with
  | [] => refuse .empty s
  | b :: _ => answerOk (byteOf s.batch.queue.length ++ byteOf b.reason.code ++ batchBytes b.body) s

/-- BATCH_PEEK (R138). -/
def execBatchPeek (p : PortId) (tag : Byte) (payload : List Byte) (s : State) : Next :=
  .next (takeCommand p 0x49 tag payload (withLength 0 payload peekBatch) s)

/-- R139: the oldest record is removed when its number is `n`. -/
def ackBatch (n : Serial) (s : State) : Answer :=
  match s.batch.queue with
  | [] => refuse .empty s
  | b :: rest =>
    if b.body.number = n then
      answerOk (serialBytes n ++ byteOf rest.length) { s with batch := { s.batch with queue := rest } }
    else ⟨s, .refused, .mismatch, serialBytes b.body.number⟩

/-- BATCH_ACK (R139). -/
def execBatchAck (p : PortId) (tag : Byte) (payload : List Byte) (s : State) : Next :=
  .next (takeCommand p 0x4A tag payload (withLength 4 payload (ackBatch (u32At payload 0))) s)

end Sys2Proof.Machine
end

