-- ==== Sys2Proof/Machine/Dispatch.lean ====
section
/-! DEFINITION. One arm per command: each calls its meaning. -/

namespace Sys2Proof.Machine

def exec (i : Instr) (s : State) : Host.Outcome State Fault Refusal :=
  match i with
  | .hardwareReset encA encB => Sys2Proof.Machine.execHardwareReset encA encB s
  | .encoderCount encA encB webOk => Sys2Proof.Machine.execEncoderCount encA encB webOk s
  | .indexEdge webOk => Sys2Proof.Machine.execIndexEdge webOk s
  | .indexMissing => Sys2Proof.Machine.execIndexMissing s
  | .blankCreation => Sys2Proof.Machine.execBlankCreation s
  | .tick => Sys2Proof.Machine.execTick s
  | .restDwellExpiry => Sys2Proof.Machine.execRestDwellExpiry s
  | .webSample webOk => Sys2Proof.Machine.execWebSample webOk s
  | .windowOpen ch => Sys2Proof.Machine.execWindowOpen ch s
  | .windowClose ch => Sys2Proof.Machine.execWindowClose ch s
  | .captureEdge ch => Sys2Proof.Machine.execCaptureEdge ch s
  | .spliceEdge => Sys2Proof.Machine.execSpliceEdge s
  | .patchKnife => Sys2Proof.Machine.execPatchKnife s
  | .valveOn v k => Sys2Proof.Machine.execValveOn v k s
  | .valveOff v k => Sys2Proof.Machine.execValveOff v k s
  | .voidSlotConsumed pt => Sys2Proof.Machine.execVoidSlotConsumed pt s
  | .camera => Sys2Proof.Machine.execCamera s
  | .gateDecision => Sys2Proof.Machine.execGateDecision s
  | .countPoint => Sys2Proof.Machine.execCountPoint s
  | .kick => Sys2Proof.Machine.execKick s
  | .pulseEnd ch => Sys2Proof.Machine.execPulseEnd ch s
  | .roundStart => Sys2Proof.Machine.execRoundStart s
  | .transactionAnswer hi lo => Sys2Proof.Machine.execTransactionAnswer hi lo s
  | .noAcknowledge byte => Sys2Proof.Machine.execNoAcknowledge byte s
  | .transactionTimeout => Sys2Proof.Machine.execTransactionTimeout s
  | .transferBegin p mosi => Sys2Proof.Machine.execTransferBegin p mosi s
  | .frame p bytes => Sys2Proof.Machine.execFrame p bytes s
  | .unknown p bytes => Sys2Proof.Machine.execUnknown p bytes s
  | .nop p tag payload => Sys2Proof.Machine.execNop p tag payload s
  | .identify p tag payload => Sys2Proof.Machine.execIdentify p tag payload s
  | .subscribe p tag payload => Sys2Proof.Machine.execSubscribe p tag payload s
  | .noticeRead p tag payload => Sys2Proof.Machine.execNoticeRead p tag payload s
  | .status p tag payload => Sys2Proof.Machine.execStatus p tag payload s
  | .start p tag payload => Sys2Proof.Machine.execStart p tag payload s
  | .stop p tag payload => Sys2Proof.Machine.execStop p tag payload s
  | .clearHalt p tag payload => Sys2Proof.Machine.execClearHalt p tag payload s
  | .runReset p tag payload => Sys2Proof.Machine.execRunReset p tag payload s
  | .configWrite p tag payload => Sys2Proof.Machine.execConfigWrite p tag payload s
  | .configRead p tag payload => Sys2Proof.Machine.execConfigRead p tag payload s
  | .stageOpen p tag payload => Sys2Proof.Machine.execStageOpen p tag payload s
  | .stageWrite p tag payload => Sys2Proof.Machine.execStageWrite p tag payload s
  | .stageCommit p tag payload => Sys2Proof.Machine.execStageCommit p tag payload s
  | .stageDrop p tag payload => Sys2Proof.Machine.execStageDrop p tag payload s
  | .slotErase p tag payload => Sys2Proof.Machine.execSlotErase p tag payload s
  | .slotRead p tag payload => Sys2Proof.Machine.execSlotRead p tag payload s
  | .slotSignature p tag payload => Sys2Proof.Machine.execSlotSignature p tag payload s
  | .changeoverArm p tag payload => Sys2Proof.Machine.execChangeoverArm p tag payload s
  | .changeoverCancel p tag payload => Sys2Proof.Machine.execChangeoverCancel p tag payload s
  | .trackRead p tag payload => Sys2Proof.Machine.execTrackRead p tag payload s
  | .registerRead p tag payload => Sys2Proof.Machine.execRegisterRead p tag payload s
  | .verdict p tag payload => Sys2Proof.Machine.execVerdict p tag payload s
  | .batchClose p tag payload => Sys2Proof.Machine.execBatchClose p tag payload s
  | .batchPeek p tag payload => Sys2Proof.Machine.execBatchPeek p tag payload s
  | .batchAck p tag payload => Sys2Proof.Machine.execBatchAck p tag payload s
  | .satelliteRead p tag payload => Sys2Proof.Machine.execSatelliteRead p tag payload s
  | .quadratureErrorSample => Sys2Proof.Machine.execQuadratureErrorSample s

end Sys2Proof.Machine
end

