-- ==== Sys2Proof/Safety.lean ====
section
/-! DEFINITION. What holds of a part that works as the manual says: the laws that every step keeps. -/

namespace Sys2Proof.Machine

/-! ## Run state and PERMIT (chapters 1 and 9) -/

/-- R168: PERMIT is active exactly when the run state is HOMING or LIVE and the halt cause set is empty. -/
def State.PermitFollows (s : State) : Prop :=
  s.run.permit = true ↔ s.run.runState ≠ .off ∧ s.run.causes = CauseSet.empty

/-- R4, R162: the position is tied to the serials exactly in LIVE. -/
def State.HomedInLive (s : State) : Prop := s.shaft.homed = true ↔ s.run.runState = .live

/-! ## Profile slots (chapter 2) -/

/-- At most one slot is in state `x`. -/
def Profiles.AtMostOne (p : Profiles) (x : SlotState) : Prop :=
  ∀ i j : Fin 4, (p.slot i).state = x → (p.slot j).state = x → i = j

/-- R21: at most one slot is ACTIVE, at most one STAGED, at most one RETIRING, and a STAGED and a RETIRING slot never exist at the
same time. -/
def Profiles.OneEach (p : Profiles) : Prop :=
  p.AtMostOne .active ∧ p.AtMostOne .staged ∧ p.AtMostOne .retiring
    ∧ ∀ i j : Fin 4, (p.slot i).state = .staged → (p.slot j).state ≠ .retiring

/-- R21, R27: a slot has a content exactly when it is not EMPTY, and carries the signature of its content. -/
def Profiles.Signed (p : Profiles) : Prop :=
  ∀ i : Fin 4, ((p.slot i).state = .empty ↔ (p.slot i).content = none)
    ∧ (p.slot i).signature = (p.slot i).content.map fun c => crc16 c.image

/-- R21, R29: the arm holds the STAGED slot, and no slot is STAGED without an arm. -/
def Profiles.ArmHoldsStaged (p : Profiles) : Prop :=
  ∀ i : Fin 4, (p.slot i).state = .staged ↔ p.arm.map ChangeoverArm.slot = some i

/-- R21: in OFF every slot is EMPTY or READY, and outside OFF one slot is ACTIVE. -/
def State.ActiveOutsideOff (s : State) : Prop :=
  (s.run.runState = .off → ∀ i : Fin 4, (s.profiles.slot i).state = .empty ∨ (s.profiles.slot i).state = .ready)
    ∧ (s.run.runState ≠ .off → ∃ i : Fin 4, (s.profiles.slot i).state = .active)

/-- The laws of the slots (R21, R27, R29). -/
def State.SlotsLawful (s : State) : Prop :=
  s.profiles.OneEach ∧ s.profiles.Signed ∧ s.profiles.ArmHoldsStaged ∧ s.ActiveOutsideOff

/-! ## Tracking queue (chapter 3) -/

/-- The `len` serials before `next`, oldest first. -/
def serialsBefore (next : Serial) (len : Nat) : List Serial := (List.range len).map fun i => next - BitVec.ofNat 32 (len - i)

/-- R41: the records have consecutive serials, oldest first, up to the one before the next serial, and never number more than
d_del + 1. -/
def State.RecordsRun (s : State) : Prop :=
  s.track.records.map Blank.serial = serialsBefore s.track.nextSerial s.track.records.length
    ∧ s.track.records.length ≤ s.config.stations.delivery + 1

/-- R41, R42, R48: the queue is empty in OFF and never in LIVE; while it holds records the high-water cycle is the newest one's
serial, and in OFF there is none. -/
def State.QueueFollows (s : State) : Prop :=
  (s.run.runState = .off → s.track.records = [] ∧ s.track.highWater = none ∧ s.track.splicePending = false)
    ∧ (s.run.runState = .live → s.track.records ≠ [])
    ∧ (s.track.records ≠ [] → s.track.highWater = some (s.track.nextSerial - 1))

/-- The laws of the tracking queue; the delivery stands at 31 at most (R179). -/
def State.TrackLawful (s : State) : Prop := s.RecordsRun ∧ s.QueueFollows ∧ s.config.stations.delivery ≤ 31

/-- R119: a blank is counted REJECT exactly when it is DIVERTED, and GOOD or STRAY only when it is PASSED. -/
def Blank.CountedOnce (b : Blank) : Prop :=
  (b.outcome = .diverted ↔ b.counted = .reject) ∧ (b.counted = .good ∨ b.counted = .stray → b.outcome = .passed)

/-- R117: a blank that holds HOLD_DIVERT, which only its gate decision adds, is DIVERTED. -/
def Blank.HoldDiverts (b : Blank) : Prop := b.defects.holdDivert = true → b.outcome = .diverted

/-- R39: there is at most one verdict entry per source. -/
def Blank.OneVerdictEach (b : Blank) : Prop := (b.verdicts.map VerdictEntry.source).Nodup

/-- The laws of the blank records. -/
def State.RecordsLawful (s : State) : Prop := ∀ b ∈ s.track.records, b.CountedOnce ∧ b.HoldDiverts ∧ b.OneVerdictEach

/-- R39, R40: a later record of the same blank: the serial and slot keep their values, members only join the defect set, and each
field that has left its first value keeps the new one. -/
def Blank.Advances (b later : Blank) : Prop :=
  later.serial = b.serial ∧ later.slot = b.slot
    ∧ (b.presence ≠ .pending → later.presence = b.presence)
    ∧ (∀ d, b.defects.has d = true → later.defects.has d = true)
    ∧ (∀ e, b.printError = some e → later.printError = some e)
    ∧ (∀ e, b.patchError = some e → later.patchError = some e)
    ∧ (b.cameraDone = true → later.cameraDone = true)
    ∧ b.verdicts.map VerdictEntry.source <+: later.verdicts.map VerdictEntry.source
    ∧ (b.outcome ≠ .pending → later.outcome = b.outcome)
    ∧ (b.counted ≠ .no → later.counted = b.counted)

/-! ## Action scheduler (chapter 4) -/

/-- R82: each GUM output of an enabled valve is active exactly while its open segment set is not empty, and a segment is open only
in LIVE and MOVING. -/
def State.GumFollows (s : State) : Prop :=
  (∀ v : Fin 4, s.sched.outputs.gum[v.val] = (s.config.channels.valves[v.val].enable && !s.sched.segments[v.val].isEmpty))
    ∧ ∀ v : Fin 4, s.sched.segments[v.val] ≠ [] → s.run.runState = .live ∧ s.shaft.motion = .moving

/-- R83, R84: the PATCH, CAMERA and KICK outputs are active exactly while their pulse is, and the GATE output shows the gate level
when its channel is enabled. -/
def State.OutputsFollow (s : State) : Prop :=
  s.sched.outputs.patch = s.sched.patchPulse.isSome ∧ s.sched.outputs.camera = s.sched.cameraPulse.isSome
    ∧ s.sched.outputs.kick = s.sched.kickPulse.isSome
    ∧ s.sched.outputs.gate = (s.sched.gateLevel && s.config.channels.gateEnable)

/-- R85: in OFF no pulse runs, the gate level is inactive and all eight outputs are inactive. -/
def State.QuietInOff (s : State) : Prop :=
  s.run.runState = .off →
    s.sched.patchPulse = none ∧ s.sched.cameraPulse = none ∧ s.sched.kickPulse = none ∧ s.sched.gateLevel = false
      ∧ s.sched.outputs = Outputs.inactive

/-! ## Register monitor (chapter 5) -/

/-- R97, R105: each channel's value stays within plus or minus its configured maximum correction; in OFF both channels stand as a
reset leaves them. -/
def State.ValuesClamped (s : State) : Prop :=
  (∀ ch : RegChannel, (s.channel ch).value.natAbs ≤ s.config.register.maxOf ch)
    ∧ (s.run.runState = .off → s.reg = RegisterMonitor.reset)

/-! ## Batch counter (chapter 7) -/

/-- R137: the batch queue holds at most 8 closed records whose batch numbers are consecutive and increasing from oldest to newest,
and the open batch's number is one more than the newest. -/
def State.BatchesRun (s : State) : Prop :=
  s.batch.queue.length ≤ 8
    ∧ s.batch.queue.map (fun c => c.body.number) = serialsBefore s.batch.current.body.number s.batch.queue.length

/-! ## Command ports (chapter 11) -/

/-- R196, R197: a notice queue holds at most 32 records, the lost count holds at 65,535, and the attention line is active exactly
while the queue holds a record. -/
def Port.NoticesInOrder (p : Port) : Prop :=
  p.notices.length ≤ 32 ∧ p.lost ≤ 65535 ∧ (p.attention = true ↔ p.notices ≠ [])

/-- R196, R197 on every port. -/
def State.NoticesInOrder (s : State) : Prop := ∀ p : PortId, (s.port p).NoticesInOrder

/-- R196, R199: a queue that only has records removed from its head, oldest first, or only has records joined at its end. -/
def KeepsOrder (before after : List Notice) : Prop := (∃ k, after = before.drop k) ∨ before <+: after

/-- The transfer in progress on port `p`, or a new one, can end having shifted in `frame` and no contradicting byte (R189). -/
def State.CanEnd (s : State) (p : PortId) (frame : List Byte) : Prop := (s.port p).transferBytes frame ≠ none

/-- The part when that transfer has ended and nothing has been taken from it yet. -/
def State.ended (s : State) (p : PortId) (frame : List Byte) : State := (endTransfer p frame s).part

/-- R190, R202: the frame a transfer shifts out: the pending response, or the NONE frame where there is none. -/
def pendingFrame : Option Response → List Byte
  | none => [0, 0, 5, 0, 0]
  | some r =>
    [r.code, r.tag, BitVec.ofNat 8 r.result.code, BitVec.ofNat 8 r.reason.code, BitVec.ofNat 8 r.payload.length] ++ r.payload

/-- R190: the first `n` bytes of what a frame shifts out, zeros after its end. -/
def clockedOut (bytes : List Byte) (n : Nat) : List Byte := bytes.take n ++ List.replicate (n - bytes.length) 0

/-! ## The words the statements use -/

/-- PERMIT and the homed flag go with the run state (R168, R4, R162). -/
def State.RunLawful (s : State) : Prop := s.PermitFollows ∧ s.HomedInLive

/-- The outputs show what their rules say (R82 to R85). -/
def State.OutputsLawful (s : State) : Prop := s.GumFollows ∧ s.OutputsFollow ∧ s.QuietInOff

/-- R1's cycle of the levels (ENC_A, ENC_B), from left to right, as pairs of one level pair and the next. -/
def encoderSteps : List ((Bool × Bool) × (Bool × Bool)) :=
  [((false, false), (true, false)), ((true, false), (true, true)), ((true, true), (false, true)),
   ((false, true), (false, false))]

/-- The target of `pt` stands passed, and firing it takes one firing: the slot is not armed again at or behind the position. -/
def State.FiresOnce (s : State) (pt : TimedPoint) : Prop := s.due pt = true ∧ (fireOnce pt s).due pt = false

/-- R64: `u` with the slot of `pt` armed for cycle `c`: its blank is c − d, its angles are those of that blank's profile or of the
configuration, clamp noted is NO, and its target is computed (`TargetsAreCompensatedAndClamped`, `ValveOffStaysBehindItsOn`). -/
def State.armedFor (u : State) (pt : TimedPoint) (c : Serial) : State :=
  let n := c - BitVec.ofNat 32 (stationOf u.config pt)
  retarget pt
    (u.setSlot pt
      { phase := .armed, cycle := c, serial := n, angle := nominalAngle u.config (u.profileOf n) pt,
        onAngle := heldOnAngle (u.profileOf n) pt, target := 0, clampNoted := false, passed := false })

/-- R66: `t` is `u` with the slot of `pt` armed for the cycle after `c`, and nothing else changed but by that arming. -/
def State.RearmedTo (u t : State) (pt : TimedPoint) (c : Serial) : Prop := t = u.armedFor pt (c + 1)

/-- R65: `t` is `s` with every slot but the kick's and those of disabled valves armed for the homing to `c0`, and nothing else changed but
by the clamps of those armings, which join TIMING to blank `c0`. -/
def State.ArmedAtHoming (s t : State) (c0 : Serial) : Prop :=
  let left (pt : TimedPoint) : Prop :=
    pt = .kick ∨ ∃ v k : Fin 4, (pt = .valveOn v k ∨ pt = .valveOff v k) ∧ s.config.channels.valves[v.val].enable = false
  let armed (pt : TimedPoint) : ActionSlot := (s.armedFor pt (c0 + BitVec.ofNat 32 (stationOf s.config pt))).slot pt
  (∀ pt, (left pt → t.slot pt = s.slot pt) ∧ (¬left pt → t.slot pt = armed pt))
    ∧ ((∃ pt, ¬left pt ∧ (armed pt).clampNoted = true) →
        t.track =
          { s.track with
            records := s.track.records.map fun b =>
              if b.serial = c0 then { b with defects := { b.defects with timing := true } } else b })
    ∧ ((∀ pt, left pt ∨ (armed pt).clampNoted = false) → t.track = s.track)
    ∧ { t with sched := { t.sched with slots := s.sched.slots }, track := s.track } = s

/-- R2, R9, R70: `u` is `s` after the shaft moved forward from position `x` to the position of `s`. While homed, the movement passes `y`
when `y` lay beyond `x`, so that x − y was half of M or more, modulo M, and the position is at or beyond it, by less than half of M.
The target of an ARMED slot that it passed, and the creation boundary H × P, now stand passed, beside what already stood so; nothing
else changes. -/
def State.MovedFrom (s u : State) (x : Nat) : Prop :=
  let half := 2 ^ 31 * s.pitch
  let passes (y : Nat) : Prop :=
    s.shaft.homed = true ∧ half ≤ forwardDistance s.pitch x y ∧ forwardDistance s.pitch s.shaft.position y < half
  (∀ pt,
      { u.slot pt with passed := (s.slot pt).passed } = s.slot pt
        ∧ ((u.slot pt).passed = true ↔
            (s.slot pt).passed = true ∨ (s.slot pt).phase = .armed ∧ passes (s.slot pt).target))
    ∧ { u.track with boundaryPassed := s.track.boundaryPassed } = s.track
    ∧ (u.track.boundaryPassed = true ↔
        s.track.boundaryPassed = true ∨ ∃ h, s.track.highWater = some h ∧ passes (h.toNat * s.pitch))
    ∧ { u with sched := { u.sched with slots := s.sched.slots }, track := s.track } = s

/-- How far the position lies beyond the target of a slot (R70): the lower of two passed targets lies farther back. -/
def State.behind (s : State) (pt : TimedPoint) : Nat := forwardDistance s.pitch s.shaft.position (s.slot pt).target

/-- R9, R70: the creation stands passed, and every passed target stands at its boundary or beyond. -/
def State.CreationNext (s : State) : Prop :=
  s.shaft.homed = true
    ∧ ∃ h, s.track.highWater = some h ∧ s.track.boundaryPassed = true
        ∧ ∀ pt, s.due pt = true → s.behind pt ≤ forwardDistance s.pitch s.shaft.position (h.toNat * s.pitch)

/-- R70: the target of `pt` stands passed, none lower does, and the creation does not come first; it is no valve OFF whose own ON
stands passed at the same target. -/
def State.PointNext (s : State) (pt : TimedPoint) : Prop :=
  s.due pt = true ∧ (∀ q, s.due q = true → s.behind q ≤ s.behind pt) ∧ ¬s.CreationNext
    ∧ ∀ v j, pt = .valveOff v j → (s.slot pt).angle.isSome = true → s.due (.valveOn v j) = true →
        s.behind (.valveOn v j) = s.behind pt → (s.slot (.valveOn v j)).cycle ≠ (s.slot pt).cycle

/-- One thing a movement or a tick takes (R64, R70): the creation, or one firing of a point. A slot whose new target stands passed takes
its turn again by that target's own position (the model's deduction, notes/assumptions/29.md). A tie broken by a free value moves the
model's own count of them. -/
def State.TakesNext (s t : State) : Prop :=
  (s.CreationNext ∧ t = createBlank s)
    ∨ ∃ (pt : TimedPoint) (n : Nat), s.PointNext pt ∧ t = fireOnce pt { s with freeCount := n }

/-- `t` is `s` after `k` such things. -/
def State.Takes : Nat → State → State → Prop
  | 0, s, t => t = s
  | k + 1, s, t => ∃ u, s.TakesNext u ∧ State.Takes k u t

/-- Neither a target nor the creation boundary stands passed. -/
def State.NothingPassed (s : State) : Prop := (∀ pt, s.due pt = false) ∧ s.creationDue = false

/-- R70, R82: `t` is `s` after all that stands passed was taken, in order, and the valve outputs set; the model takes 256 things at
most in one event (notes/assumptions/8.md). -/
def State.PassedTo (s t : State) : Prop :=
  ∃ (k : Nat) (u : State), k ≤ 256 ∧ State.Takes k s u ∧ (k < 256 → u.NothingPassed) ∧ t = setValveOutputs u

/-- R68, step 2: the slot of `pt` is recomputed: ARMED, compensated and not void. -/
def State.recomputed (s : State) (pt : TimedPoint) : Bool :=
  (s.slot pt).phase == .armed && (s.slot pt).angle.isSome && (leadOf s.config pt).isSome

/-- R61, R68: the recomputation of the slot of `pt` notes a clamp. -/
def State.notesClamp (s : State) (pt : TimedPoint) : Bool :=
  s.recomputed pt && !(s.slot pt).clampNoted && ((retarget pt s).slot pt).clampNoted

/-- R68, step 2: `u` is `s` with the target of every such slot computed anew, and TIMING joined to the blanks of newly noted clamps. -/
def State.RecomputedTo (s u : State) : Prop :=
  (∀ pt, u.slot pt = if s.recomputed pt then (retarget pt s).slot pt else s.slot pt)
    ∧ u.track =
      { s.track with
        records := s.track.records.map fun b =>
          if allPoints.any (fun pt => s.notesClamp pt && (s.slot pt).serial == b.serial) then
            { b with defects := { b.defects with timing := true } }
          else b }
    ∧ { u with sched := { u.sched with slots := s.sched.slots }, track := s.track } = s

/-- R68: `t` is `s` after the scheduler's part of a tick; `stopped` says that the motion flag has just become AT_REST. -/
def State.ScheduledTo (s t : State) (stopped : Bool) : Prop :=
  (s.run.runState ≠ .live → t = s)
    ∧ (s.run.runState = .live →
        ∃ u : State,
          (if stopped then { s with sched := { s.sched with segments := Vector.replicate 4 [] } } else s).RecomputedTo u
            ∧ u.PassedTo t)

/-! ## The time base (R11, R83, R148, R151) -/

/-- The events that the time base brings about by itself, and the moment of each: the end of a pulse (R83), the timeout of the
transaction on the bus (R151), the next round (R148). -/
def State.Awaits (s : State) (event : Instr) (moment : Nat) : Prop :=
  (∃ ch, event = .pulseEnd ch ∧ s.sched.pulse ch = some moment)
    ∨ (event = .transactionTimeout ∧ ∃ x, s.sat.transaction = some x ∧ moment = x.start + 1000)
    ∨ (event = .roundStart ∧ s.sat.running = true
        ∧ (s.sat.firstRound = some moment ∨ s.sat.firstRound = none ∧ moment = s.time + (10000 - s.sat.phase)))

/-- The time base stands at `moment`, or where it stood if that is later, and the round phase has moved with it (R148). -/
def State.atMoment (s : State) (moment : Nat) : State :=
  { s with
    time := Nat.max s.time moment
    sat := if s.sat.running && s.sat.firstRound.isNone then { s.sat with phase := s.sat.phase + (moment - s.time) } else s.sat }

/-- `t` is `s` after the earliest of those events, with the effect that its command has at its moment. Which of two events of one moment
comes first is the model's choice (notes/assumptions/7.md). -/
def State.TimedNext (s t : State) (limit : Nat) : Prop :=
  ∃ (event : Instr) (moment : Nat), s.Awaits event moment ∧ moment ≤ limit ∧ (∀ e m, s.Awaits e m → moment ≤ m)
    ∧ exec event (s.atMoment moment) = .next t

/-- `t` is `s` after `k` such events up to `limit`. -/
def State.TimedBy (limit : Nat) : Nat → State → State → Prop
  | 0, s, t => t = s
  | k + 1, s, t => ∃ u, s.TimedNext u limit ∧ State.TimedBy limit k u t

/-- `t` is `s` when the time base has moved on to `limit`: every event on the way was taken at its moment, in the order of time; the
model takes 16 at most (notes/assumptions/8.md). -/
def State.TimedTo (s t : State) (limit : Nat) : Prop :=
  ∃ (k : Nat) (u : State), k ≤ 16 ∧ State.TimedBy limit k s u ∧ (k < 16 → ∀ e m, u.Awaits e m → limit < m) ∧ t = u.atMoment limit

/-- R83: the pulses of the channels named have ended, their outputs inactive; the rest of the scheduler stands as before. -/
def Sched.withEnded (x : Sched) (ended : PulseChannel → Bool) : Sched :=
  { x with
    patchPulse := if ended .patch then none else x.patchPulse
    cameraPulse := if ended .camera then none else x.cameraPulse
    kickPulse := if ended .kick then none else x.kickPulse
    outputs :=
      { x.outputs with
        patch := x.outputs.patch && !ended .patch
        camera := x.outputs.camera && !ended .camera
        kick := x.outputs.kick && !ended .kick } }

/-- R83: the pulse of a channel ends by `limit`. -/
def Sched.endsBy (x : Sched) (limit : Nat) (ch : PulseChannel) : Bool :=
  match x.pulse ch with
  | none => false
  | some t => decide (t ≤ limit)

/-- R154: a sample entry after a no-answer; the third in a row makes it OFFLINE. -/
def SampleEntry.unanswered (e : SampleEntry) : SampleEntry :=
  let failure := Nat.min 255 (e.failure + 1)
  let fails : Bool := failure == 3 && !(e.state == .offline)
  { e with state := if fails then .offline else e.state, dwell := if fails then 0 else e.dwell, failure := failure }

/-! ## What an event hands on and leaves -/

/-- What port `p` holds after the notices `ns` were posted, in their order (R195). -/
def State.portAfter (s : State) (p : PortId) (ns : List Notice) : Port := ns.foldl Port.queueNotice (s.port p)

/-- What the three ports hold after the notices `ns` were posted (R195). -/
def State.portsAfter (s : State) (ns : List Notice) : Ports :=
  ⟨s.portAfter .port1 ns, s.portAfter .port2 ns, s.portAfter .port3 ns⟩

/-- R78, R79, R83: `u` with the kick armed for cycle `c`; where its target stands passed it fires at once: the KICK pulse of an enabled
channel runs for its width, and the slot becomes UNARMED. -/
def State.kickedFor (u : State) (c : Serial) : State :=
  let armed := u.armedFor .kick c
  let k := armed.config.channels.kick
  if armed.due .kick then
    State.setSlot
      { armed with
        sched :=
          if k.enable then
            { armed.sched with kickPulse := some (armed.time + k.width), outputs := { armed.sched.outputs with kick := true } }
          else armed.sched } .kick { armed.slot .kick with phase := .unarmed, passed := false }
  else armed

/-- R134, R167, R169: where the batch is HELD with good and stray count at or above target and overrun limit, BACKLOG is handed, with
its HALT notice when the set did not hold it. -/
def State.overrunHanded (u : State) : State :=
  let body := u.batch.current.body
  let past : Bool :=
    match body.order with
    | none => false
    | some o => decide (o.target + o.overrun ≤ body.good + body.strays)
  let causes := { u.run.causes with backlog := true }
  if body.held && past && !u.run.causes.backlog then
    { u with
      run := ⟨u.run.runState, causes, false⟩
      ports := u.portsAfter [.halt causes ⟨false, false, true, false, false⟩ CauseSet.empty u.run.runState false] }
  else u

/-- The notices of an encoder fault (R165, R166): HALT when ENCODER was not in the set, then RUN_STATE. That HALT
already carries the run state HOMING is the model's deduction (notes/assumptions/10.md). -/
def State.faultNotices (s : State) : List Notice :=
  let causes := { s.run.causes with encoder := true }
  (if s.run.causes.encoder then [] else [.halt causes ⟨false, true, false, false, false⟩ CauseSet.empty .homing false])
    ++ [.runState s.run.runState .homing .encoderFault s.profiles.active s.track.highWater s.track.nextSerial causes false]

/-- What an encoder fault makes of `s` (R8, R51, R85, R104, R165). -/
def State.FaultedTo (s t : State) (kind : FaultKind) (detail : Int) : Prop :=
  t.shaft = { s.shaft with latch := ⟨kind, detail⟩, homed := false, position := s.shaft.position % 2 ^ 48 }
    ∧ t.run = ⟨.homing, { s.run.causes with encoder := true }, false⟩
    ∧ t.track =
      { s.track with
        records := s.track.records.map fun b =>
          if b.presence = .present ∧ b.outcome = .pending then { b with defects := { b.defects with timing := true } } else b }
    ∧ (∀ pt, t.slot pt = { s.slot pt with phase := .unarmed, clampNoted := false, passed := false })
    ∧ (∀ v : Fin 4, t.sched.segments[v.val] = [] ∧ t.sched.outputs.gum[v.val] = false)
    ∧ (∀ ch, t.sched.pulse ch = s.sched.pulse ch) ∧ t.sched.gateLevel = s.sched.gateLevel
    ∧ t.sched.outputs.patch = s.sched.outputs.patch ∧ t.sched.outputs.camera = s.sched.outputs.camera
    ∧ t.sched.outputs.gate = s.sched.outputs.gate ∧ t.sched.outputs.kick = s.sched.outputs.kick
    ∧ (∀ ch, t.channel ch = { s.channel ch with window := none }) ∧ t.reg.waiting = none ∧ t.reg.knives = []
    ∧ (∀ p, t.port p = s.portAfter p s.faultNotices)
    ∧ t.profiles = s.profiles ∧ t.batch = s.batch ∧ t.sat = s.sat ∧ t.config = s.config ∧ t.webOk = s.webOk ∧ t.time = s.time
    ∧ t.pending = s.pending

/-- A judgement of a window result is bad: no capture, or an error beyond the tolerance (R94, R95). -/
def WindowRecord.isBad (w : WindowRecord) : Bool :=
  match w.capture with
  | none => true
  | some a => decide (w.t < ((a : Int) - (w.e : Int)).natAbs)

/-- The judgement puts the channel in LOST (R100). -/
def Channel.goesLost (x : Channel) (w : WindowRecord) : Bool := w.isBad && Nat.min 255 (x.bad + 1) == 3 && x.state == .tracking

/-- The judgement returns the channel to TRACKING (R101). -/
def Channel.returns (x : Channel) (w : WindowRecord) : Bool := !w.isBad && Nat.min 255 (x.good + 1) == 2 && x.state == .lost

/-- R97: `value` integrated with the error `eps`, a quarter of it rounded toward zero, within plus or minus `max`. -/
def integrated (max : Nat) (value eps : Int) : Int :=
  Max.max (-(max : Int)) (Min.min (max : Int) (value - if 0 ≤ eps then eps / 4 else -((-eps) / 4)))

/-- A channel after a judgement of `w` (R94, R95, R97, R99 to R101); its window is not the judgement's. -/
def Channel.judged (x : Channel) (w : WindowRecord) (max : Nat) : Channel where
  state := if x.goesLost w then .lost else if x.returns w then .tracking else x.state
  value :=
    match w.capture with
    | none => x.value
    | some a => integrated max x.value ((a : Int) - (w.e : Int))
  bad := if w.isBad then Nat.min 255 (x.bad + 1) else 0
  good := if w.isBad then 0 else Nat.min 255 (x.good + 1)
  window := x.window
  last :=
    match w.capture with
    | none => .missing w.serial
    | some a => .error w.serial ((a : Int) - (w.e : Int))

/-- A blank after its window result `w` of channel `ch` was judged (R94, R95): the error is written once, and a bad judgement
adds PRINT_REG, PATCH_REG or, for a missing patch edge, NO_PATCH. -/
def Blank.judged (b : Blank) (ch : RegChannel) (w : WindowRecord) : Blank :=
  match w.capture with
  | none => { b with defects := b.defects.insert (missingDefect ch) }
  | some a =>
    let b := b.setError ch ((a : Int) - (w.e : Int))
    if w.isBad then { b with defects := b.defects.insert (errorDefect ch) } else b

/-- The part after the window result `w` of channel `ch` was judged (R94, R95, R97, R99 to R101): the channel and the blank's record
take the judgement; entering LOST or leaving it posts REGISTER, and entering it hands REGISTER where the blank's HEADER `halts`. -/
def State.judgedTo (s : State) (ch : RegChannel) (w : WindowRecord) (halts : Bool) : State :=
  let old := s.channel ch
  let new := old.judged w (s.config.register.maxOf ch)
  let lost := old.goesLost w
  let handed := lost && halts && !s.run.causes.register
  let causes := { s.run.causes with register := true }
  { s.setChannel ch new with
    track := { s.track with records := s.track.records.map fun r => if r.serial = w.serial then r.judged ch w else r }
    run := if handed then { s.run with causes := causes, permit := false } else s.run
    ports :=
      s.portsAfter
        ((if lost || old.returns w then [.register ch new.state w.serial new.value] else [])
          ++ if handed then [.halt causes ⟨false, false, false, false, true⟩ CauseSet.empty s.run.runState false] else []) }

/-- R149, R150: the read of the first entry from number `k` on that is enabled and due in round `round`, beginning at `time` with the
address and the register byte of the entry. -/
def State.pollAfter (s : State) (k : Nat) (round : Serial) (time : Nat) : Option Transaction :=
  (([0, 1, 2, 3, 4, 5, 6, 7] : List (Fin 8)).find? fun m =>
    decide (k ≤ m.val) && (s.satConfig m).enable && round.toNat % (s.satConfig m).divider == 0).map fun m =>
      ⟨m, time, false, (s.satConfig m).address, (s.satConfig m).register⟩

/-- R150: phases 1 to 6 of a read of 7-bit address `a` and register byte `r` on the bus: start, address with write, register, repeated
start, address with read, the two data bytes, of which the poller acknowledges the first. -/
def readPhases (a r : Nat) (hi lo : Byte) : List BusItem :=
  [.start, .sent (BitVec.ofNat 8 (2 * a)) true, .sent (BitVec.ofNat 8 r) true, .repeatedStart,
   .sent (BitVec.ofNat 8 (2 * a + 1)) true, .received hi true, .received lo false]

/-- R151: what a read stands on the bus with when the module does not acknowledge `byte`: the phases before it, that byte, stop. -/
def refusedPhases (a r : Nat) : NackByte → List BusItem
  | .addressWrite => (readPhases a r 0 0).take 1 ++ [.sent (BitVec.ofNat 8 (2 * a)) false, .stop]
  | .register => (readPhases a r 0 0).take 2 ++ [.sent (BitVec.ofNat 8 r) false, .stop]
  | .addressRead => (readPhases a r 0 0).take 4 ++ [.sent (BitVec.ofNat 8 (2 * a + 1)) false, .stop]

/-- R151: `bus` is a read that timed out: some of its phases, with any data bytes, the byte sent last perhaps not acknowledged, and a
stop condition or, where the lines do not allow one, none (notes/assumptions/28.md). -/
def IsTimedOut (a r : Nat) (bus : List BusItem) : Prop :=
  ∃ (k : Nat) (hi lo : Byte) (came : List BusItem) (freed : Bool),
    let reached := (readPhases a r hi lo).take k
    (came = reached ∨ ∃ xs byte, reached = xs ++ [.sent byte true] ∧ came = xs ++ [.sent byte false])
      ∧ bus = came ++ if freed then [.stop] else []

/-- The transaction `x` has ended with entry `x.entry` becoming `e`, having put `bus` on the bus (R149, R150, R155, R157): the next
entry due is polled; a change of state posts SATELLITE, and one of a HOLD entry into TRIPPED or OFFLINE then hands SATELLITE, with
its HALT notice when the set did not hold it. Nothing else changes, but the model's count of free values. -/
def State.PollEndsWith (s t : State) (x : Transaction) (e : SampleEntry) (bus : List BusItem) : Prop :=
  let old := s.entry x.entry
  let q := (s.satConfig x.entry).consequence
  let changed : Bool := !(e.state == old.state)
  let handed : Bool := changed && q == .hold && (e.state == .tripped || e.state == .offline) && !s.run.causes.satellite
  let causes := { s.run.causes with satellite := true }
  { t with freeCount := s.freeCount } =
    { s with
      sat :=
        { s.sat with
          entries := s.sat.entries.set x.entry.val e
          transaction := s.pollAfter (x.entry.val + 1) s.sat.round s.time
          bus := bus }
      run := if handed then { s.run with causes := causes, permit := false } else s.run
      ports :=
        s.portsAfter
          ((if changed then [.satellite x.entry old.state e.state e.value s.sat.round q] else [])
            ++ if handed then [.halt causes ⟨false, false, false, true, false⟩ CauseSet.empty s.run.runState false] else []) }

/-! ## Layouts of the two long answers (R203, R204) -/

/-- A number laid out big-endian in `width` bytes. -/
structure Item where
  width : Nat
  value : Nat
  deriving DecidableEq, Repr

/-- The bytes of an item. -/
def Item.bytes (x : Item) : List Byte := (List.range x.width).map fun k => BitVec.ofNat 8 (x.value / 256 ^ (x.width - 1 - k))

/-- The bytes of items in order. -/
def layOut (xs : List Item) : List Byte := xs.flatMap Item.bytes

/-- A flag: NO 0, YES 1. -/
def flagItem (b : Bool) : Item := ⟨1, if b then 1 else 0⟩

/-- A signed number, two's complement. -/
def signedItem (width : Nat) (i : Int) : Item := ⟨width, (i % (256 ^ width : Nat)).toNat⟩

/-- An optional item: a presence byte, then the item, all 0 when absent. -/
def optItem (width : Nat) : Option Nat → List Item
  | none => [⟨1, 0⟩, ⟨width, 0⟩]
  | some v => [⟨1, 1⟩, ⟨width, v⟩]

/-- The index, in the order of R177, of the first configuration section still unwritten, which is also its code. -/
def MachineConfig.unwritten (m : MachineConfig) : Option Nat :=
  (([0, 1, 2, 3, 4, 5, 6, 7, 8, 9, 10, 11, 12] : List (Fin 13)).find? fun k => !m.written[k.val]).map Fin.val

/-- R175, R188: the run-state controller's part of STATUS. -/
def State.runItems (s : State) : List Item :=
  [⟨1, s.run.runState.code⟩, ⟨1, s.run.causes.mask⟩, flagItem s.run.permit, flagItem s.config.unwritten.isNone]
    ++ optItem 1 s.config.unwritten

/-- R15: the shaft counter's part; `cpm` stands in the two bytes of the cycles per minute. -/
def State.shaftItems (s : State) (cpm : Nat) : List Item :=
  let x := s.shaft
  [flagItem x.homed, ⟨6, x.position⟩, ⟨4, if x.homed then x.position / s.pitch + 1 else 0⟩,
   ⟨2, if x.homed then x.position % s.pitch else 0⟩, ⟨6, x.lastIndex⟩, ⟨2, x.slips⟩, ⟨2, x.speed⟩, ⟨2, cpm⟩,
   ⟨1, x.motion.code⟩, ⟨1, x.latch.kind.code⟩, signedItem 4 x.latch.detail]

/-- The changeover arm in STATUS: staged slot, trigger, serial n and splice seen. What stands in the last two where the trigger has none
is the model's choice (notes/assumptions/26.md). -/
def armItems : Option ChangeoverArm → List Item
  | none => [⟨1, 0⟩, ⟨7, 0⟩]
  | some ⟨i, .next⟩ => [⟨1, 1⟩, ⟨1, i.val⟩, ⟨1, 0⟩, ⟨4, 0⟩, flagItem false]
  | some ⟨i, .serial n⟩ => [⟨1, 1⟩, ⟨1, i.val⟩, ⟨1, 1⟩, ⟨4, n.toNat⟩, flagItem false]
  | some ⟨i, .splice seen⟩ => [⟨1, 1⟩, ⟨1, i.val⟩, ⟨1, 2⟩, ⟨4, 0⟩, flagItem seen]

/-- R35: the profile store's part. -/
def State.profileItems (s : State) : List Item :=
  let slots := ([0, 1, 2, 3] : List (Fin 4)).map s.profiles.slot
  let area := s.profiles.staging
  slots.map (fun x => ⟨1, x.state.code⟩)
    ++ slots.flatMap (fun x => optItem 4 (x.content.map fun c => c.header.order.toNat))
    ++ slots.flatMap (fun x => optItem 2 (x.signature.map BitVec.toNat))
    ++ armItems s.profiles.arm
    ++ [⟨1, holderCode area.holder⟩,
      ⟨1, maskOf [area.header.isSome, area.print.isSome, area.patch.isSome, area.gum[0].isSome, area.gum[1].isSome,
        area.gum[2].isSome, area.gum[3].isSome]⟩, flagItem area.failed]

/-- R54: the tracking queue's part. -/
def State.trackItems (s : State) : List Item :=
  [⟨1, s.track.records.length⟩] ++ optItem 4 (s.track.records.head?.map fun b => b.serial.toNat)
    ++ optItem 4 (s.track.highWater.map BitVec.toNat) ++ [⟨4, s.track.nextSerial.toNat⟩, flagItem s.track.splicePending]

/-- R87: the action scheduler's part. -/
def State.schedItems (s : State) : List Item :=
  let o := s.sched.outputs
  let kick := s.slot .kick
  let c := s.config.channels
  let advance (lead : Nat) : Item := ⟨4, (s.shaft.speed * lead + 8000) / 16000⟩
  [⟨1, maskOf [o.gum[0], o.gum[1], o.gum[2], o.gum[3], o.patch, o.camera, o.gate, o.kick]⟩]
    ++ ([0, 1, 2, 3] : List (Fin 4)).map (fun v => ⟨1, s.sched.segments[v.val].length⟩)
    ++ [flagItem s.sched.gateLevel]
    ++ (if kick.phase = .armed then [⟨1, 1⟩, ⟨4, kick.cycle.toNat⟩, ⟨6, kick.target⟩] else [⟨1, 0⟩, ⟨10, 0⟩])
    ++ ([0, 1, 2, 3] : List (Fin 4)).flatMap (fun v => [advance c.valves[v.val].openLead, advance c.valves[v.val].closeLead])
    ++ [advance c.patch.lead, advance c.camera.lead, advance c.gateLead, advance c.kick.lead]

/-- R145: the batch counter's part; each item that may be absent is an optional item of its own (notes/assumptions/13.md). -/
def State.batchItems (s : State) : List Item :=
  let b := s.batch.current.body
  [⟨4, b.number.toNat⟩] ++ optItem 1 (b.order.map fun o => o.slot.val) ++ optItem 4 (b.order.map fun o => o.order.toNat)
    ++ optItem 2 (b.order.map fun o => o.target) ++ optItem 2 (b.order.map fun o => o.overrun)
    ++ [⟨4, b.good⟩, ⟨4, b.rejects⟩, ⟨4, b.strays⟩] ++ optItem 4 (b.span.map fun x => x.first.toNat)
    ++ optItem 4 (b.span.map fun x => x.last.toNat)
    ++ [flagItem b.held, flagItem b.mixed, ⟨1, s.batch.current.pending.code⟩, ⟨1, s.batch.queue.length⟩]
    ++ optItem 4 (s.batch.queue.head?.map fun c => c.body.number.toNat)
    ++ optItem 4 (s.batch.queue.getLast?.map fun c => c.body.number.toNat)

/-- R159: the satellite poller's part. -/
def State.satItems (s : State) : List Item :=
  [flagItem s.sat.running, ⟨4, s.sat.round.toNat⟩]
    ++ ([0, 1, 2, 3, 4, 5, 6, 7] : List (Fin 8)).map (fun n => ⟨1, (s.entry n).state.code⟩)
    ++ [⟨1, maskOf [s.inForce .hold, s.inForce .patchInhibit, s.inForce .gumInhibit]⟩]

/-- R175: the STATUS answer, the parts in the order of its table; R103 gives the register monitor's. -/
def State.statusItems (s : State) (cpm : Nat) : List Item :=
  s.runItems ++ s.shaftItems cpm ++ s.profileItems ++ s.trackItems ++ s.schedItems
    ++ [⟨1, s.reg.print.state.code⟩, signedItem 2 s.reg.print.value, ⟨1, s.reg.patch.state.code⟩, signedItem 2 s.reg.patch.value]
    ++ s.batchItems ++ s.satItems

/-- The last judgement and the window of a register channel. What stands in the serial and ε where the judgement or the window has none
is the model's choice (notes/assumptions/26.md). -/
def Channel.recordItems (x : Channel) : List Item :=
  (match x.last with
    | .none => [⟨1, 0⟩, ⟨4, 0⟩, ⟨2, 0⟩]
    | .error n eps => [⟨1, 1⟩, ⟨4, n.toNat⟩, signedItem 2 eps]
    | .missing n => [⟨1, 2⟩, ⟨4, n.toNat⟩, ⟨2, 0⟩])
  ++ match x.window with
    | none => [⟨1, 0⟩, ⟨4, 0⟩, ⟨1, 0⟩, ⟨2, 0⟩]
    | some w => [⟨1, 1⟩, ⟨4, w.serial.toNat⟩] ++ optItem 2 w.capture

/-- R102: a register channel of REGISTER_READ, with its configured maximum correction. -/
def Channel.items (x : Channel) (max : Nat) : List Item :=
  [⟨1, x.state.code⟩, signedItem 2 x.value, ⟨2, max⟩, ⟨1, x.bad⟩, ⟨1, x.good⟩] ++ x.recordItems

/-- R102: the REGISTER_READ answer: PRINT and its waiting judgement, PATCH and its knife outcome list, padded to two entries; that
the padding is 0 and the older entry stands first is the model's choice (notes/assumptions/26.md and 32.md). -/
def State.registerItems (s : State) : List Item :=
  s.reg.print.items s.config.register.printMax ++ optItem 4 (s.reg.waiting.map fun w => w.serial.toNat)
    ++ s.reg.patch.items s.config.register.patchMax ++ [⟨1, s.reg.knives.length⟩]
    ++ (s.reg.knives.take 2).flatMap (fun k => [⟨4, k.serial.toNat⟩, ⟨1, k.outcome.code⟩])
    ++ [⟨5 * (2 - s.reg.knives.length), 0⟩]

/-! ## Layouts of the records (R203 to R206) -/

/-- R204: the blank record, with its verdict list padded to four entries of 0. -/
def Blank.items (b : Blank) : List Item :=
  let error : Option Int → List Item
    | none => [⟨1, 0⟩, ⟨2, 0⟩]
    | some e => [⟨1, 1⟩, signedItem 2 e]
  [⟨4, b.serial.toNat⟩, ⟨1, b.slot.val⟩, ⟨1, b.presence.code⟩, ⟨2, b.defects.mask⟩] ++ error b.printError ++ error b.patchError
    ++ [flagItem b.cameraDone, ⟨1, b.verdicts.length⟩]
    ++ (b.verdicts.take 4).flatMap
      (fun v => [⟨1, v.source.val⟩, ⟨1, v.result.code⟩, ⟨1, v.code.toNat⟩, flagItem v.late])
    ++ [⟨4 * (4 - b.verdicts.length), 0⟩, ⟨1, b.outcome.code⟩, ⟨1, b.counted.code⟩]

/-- R204: the batch record. What stands for a slot, an order and serials that a batch does not hold is the model's choice, for states
that no run reaches (notes/assumptions/12.md). -/
def BatchBody.items (b : BatchBody) : List Item :=
  let order := b.order.getD ⟨0, 0, 0, 0⟩
  let span := b.span.getD ⟨0, 0⟩
  [⟨4, b.number.toNat⟩, ⟨1, order.slot.val⟩, ⟨4, order.order.toNat⟩, ⟨2, order.target⟩, ⟨2, order.overrun⟩, ⟨4, b.good⟩,
   ⟨4, b.rejects⟩, ⟨4, b.strays⟩, ⟨4, span.first.toNat⟩, ⟨4, span.last.toNat⟩, flagItem b.held, flagItem b.mixed]

/-- R205: the kind code, the content length and the content of each notice record. -/
def Notice.items : Notice → List Item
  | .blankAtCamera n order expected => [⟨1, 0⟩, ⟨1, 9⟩, ⟨4, n.toNat⟩, ⟨4, order.toNat⟩, ⟨1, expected.mask⟩]
  | .changeover slot order first => [⟨1, 1⟩, ⟨1, 9⟩, ⟨1, slot.val⟩, ⟨4, order.toNat⟩, ⟨4, first.toNat⟩]
  | .profileRetired slot order => [⟨1, 2⟩, ⟨1, 5⟩, ⟨1, slot.val⟩, ⟨4, order.toNat⟩]
  | .batchClosed b => [⟨1, 3⟩, ⟨1, 36⟩, ⟨1, b.reason.code⟩] ++ b.body.items
  | .backlog number order why good strays =>
    [⟨1, 4⟩, ⟨1, 17⟩, ⟨4, number.toNat⟩, ⟨4, order.toNat⟩, ⟨1, why.code⟩, ⟨4, good⟩, ⟨4, strays⟩]
  | .batchLost b => [⟨1, 5⟩, ⟨1, 35⟩] ++ b.items
  | .halt after added removed run permit =>
    [⟨1, 6⟩, ⟨1, 5⟩, ⟨1, after.mask⟩, ⟨1, added.mask⟩, ⟨1, removed.mask⟩, ⟨1, run.code⟩, flagItem permit]
  | .runState before after cause active high next causes permit =>
    [⟨1, 7⟩, ⟨1, 16⟩, ⟨1, before.code⟩, ⟨1, after.code⟩, ⟨1, cause.code⟩] ++ optItem 1 (active.map Fin.val)
      ++ optItem 4 (high.map BitVec.toNat) ++ [⟨4, next.toNat⟩, ⟨1, causes.mask⟩, flagItem permit]
  | .register ch state n value =>
    [⟨1, 8⟩, ⟨1, 8⟩, ⟨1, if ch = .print then 0 else 1⟩, ⟨1, state.code⟩, ⟨4, n.toNat⟩, signedItem 2 value]
  | .satellite entry before after value round q =>
    [⟨1, 9⟩, ⟨1, 11⟩, ⟨1, entry.val⟩, ⟨1, before.code⟩, ⟨1, after.code⟩] ++ optItem 2 (value.map BitVec.toNat)
      ++ [⟨4, round.toNat⟩, ⟨1, q.code⟩]
  | .trackFlushed oldest newest => [⟨1, 10⟩, ⟨1, 8⟩, ⟨4, oldest.toNat⟩, ⟨4, newest.toNat⟩]
  | .gap lost => [⟨1, 11⟩, ⟨1, 2⟩, ⟨2, lost⟩]

/-- R195, R198: a port's subscription holds a notice's kind: the bit of its mask at the code that the kind's record begins with. GAP has
the code after the last bit, and is no subscribable kind. -/
def Port.subscribes (p : Port) (n : Notice) : Bool := p.subscription.mask.testBit ((n.items.head?.map Item.value).getD 11)

/-- R206: the content of each section of a profile, if the profile has it. -/
def Profile.sectionItems (c : Profile) : ProfileSection → Option (List Item)
  | .header =>
    let h := c.header
    some
      [⟨4, h.order.toNat⟩, ⟨2, h.batchTarget⟩, ⟨2, h.overrun⟩, ⟨1, h.rejects.mask⟩, ⟨1, h.policy.code⟩, flagItem h.cameraUse,
       ⟨1, h.expected.mask⟩, flagItem h.haltOnLoss]
  | .print => some [⟨2, c.print.e⟩, ⟨2, c.print.w⟩, ⟨2, c.print.t⟩]
  | .patch => c.patch.map fun x => [⟨2, x.knife⟩, ⟨2, x.e⟩, ⟨2, x.w⟩, ⟨2, x.t⟩]
  | .gum v => c.gum[v.val].map fun xs => ⟨1, xs.length⟩ :: xs.flatMap fun x => [⟨2, x.onAngle⟩, ⟨2, x.offAngle⟩]

/-- R18: a window of a PRINT or PATCH section: 1 ≤ W ≤ P div 4, T ≤ W ≤ e, and the window ends before the cycle does. -/
def WindowFits (pitch e w t : Nat) : Prop := 1 ≤ w ∧ w ≤ pitch / 4 ∧ t ≤ w ∧ w ≤ e ∧ e + w + 1 ≤ pitch

/-- R19: the segments of a GUM section: four at most, each inside the cycle, and each after the one before it. -/
def SegmentsFit (pitch : Nat) (xs : List Segment) : Prop :=
  xs.length ≤ 4 ∧ (∀ x ∈ xs, x.onAngle < x.offAngle ∧ x.offAngle < pitch) ∧ xs.IsChain fun x y => x.offAngle < y.onAngle

/-- R206: a section that may be absent: a presence byte, then its content. -/
def presentItems : Option (List Item) → List Item
  | none => [⟨1, 0⟩]
  | some xs => ⟨1, 1⟩ :: xs

/-- R206: the canonical image of a profile: HEADER and PRINT, then the other sections, each with a presence byte. -/
def Profile.imageItems (c : Profile) : List Item :=
  (c.sectionItems .header).getD [] ++ (c.sectionItems .print).getD []
    ++ ([.patch, .gum 0, .gum 1, .gum 2, .gum 3] : List ProfileSection).flatMap fun part =>
      presentItems (c.sectionItems part)

/-- R18 to R20: a section of a profile fits the pitch: its window lies inside its cycle, its angles below the pitch, and its segments
follow one another. -/
def Profile.Fits (c : Profile) (pitch : Nat) : ProfileSection → Prop
  | .header => True
  | .print => WindowFits pitch c.print.e c.print.w c.print.t
  | .patch => ∀ x, c.patch = some x → x.knife < pitch ∧ WindowFits pitch x.e x.w x.t
  | .gum v => ∀ xs, c.gum[v.val] = some xs → SegmentsFit pitch xs

/-- R20: `part` is the first section of a slot's content, in the order of R206, that does not fit the pitch. -/
def State.FirstUnfit (s : State) (i : Fin 4) (part : ProfileSection) : Prop :=
  ∃ c, (s.profiles.slot i).content = some c ∧ ¬c.Fits s.pitch part ∧ ∀ x : ProfileSection, x.code < part.code → c.Fits s.pitch x

/-- R20: every section of a slot's content fits the pitch. -/
def State.SlotFits (s : State) (i : Fin 4) : Prop := ∀ c part, (s.profiles.slot i).content = some c → c.Fits s.pitch part

/-! ## Configuration sections, field by field (R178 to R183, R207) -/

/-- A field's value lies from `low` to `high`. -/
def within (low high value : Nat) : Bool := decide (low ≤ value) && decide (value ≤ high)

/-- R207: the length of a section's content. -/
def contentLength : ConfigSection → Nat
  | .shaft => 7
  | .stations => 8
  | .angles => 10
  | .channels => 46
  | .register => 4
  | .sat _ => 9

/-- R178 to R183: whether each field of a section's content lies in its range, in the field order of R207; `pitch` bounds the angles. -/
def fieldRanges (pitch : Nat) (c : List Byte) : ConfigSection → List Bool
  | .shaft =>
    [within 1000 16000 (u16At c 0), within 0 1 (u8At c 2), within 1 65535 (u16At c 3), within 1 1000 (u16At c 5)]
  | .stations => (List.range 8).map fun i => within 2 31 (u8At c i)
  | .angles => (List.range 5).map fun i => decide (u16At c (2 * i) < pitch)
  | .channels =>
    (List.range 4).flatMap
        (fun v =>
          [within 0 20000 (u16At c (7 * v)), within 0 20000 (u16At c (7 * v + 2)), within 1 500 (u16At c (7 * v + 4)),
           within 0 1 (u8At c (7 * v + 6))])
      ++ (List.range 3).flatMap
        (fun k =>
          [within 0 20000 (u16At c (28 + 5 * k)), within 10 50000 (u16At c (30 + 5 * k)),
           within 0 1 (u8At c (32 + 5 * k))])
      ++ [within 0 20000 (u16At c 43), within 0 1 (u8At c 45)]
  | .register => [within 1 500 (u16At c 0), within 1 500 (u16At c 2)]
  | .sat _ =>
    [within 0 127 (u8At c 0), within 0 255 (u8At c 1), decide (u8At c 2 ∈ [1, 2, 4, 8]), within 0 1 (u8At c 3),
     within 0 65535 (u16At c 4), within 1 255 (u8At c 6), within 0 3 (u8At c 7), within 0 1 (u8At c 8)]

/-- R178 to R183, R207: the fields of a section are those its content holds. -/
def MachineConfig.Holds (m : MachineConfig) (c : List Byte) : ConfigSection → Prop
  | .shaft => m.shaft = ⟨u16At c 0, if u8At c 2 = 0 then .normal else .inverted, u16At c 3, u16At c 5⟩
  | .stations =>
    m.stations.patch = u8At c 0 ∧ (∀ v : Fin 4, m.stations.gum[v.val] = u8At c (1 + v.val))
      ∧ m.stations.camera = u8At c 5 ∧ m.stations.gate = u8At c 6 ∧ m.stations.delivery = u8At c 7
  | .angles => m.angles = ⟨u16At c 0, u16At c 2, u16At c 4, u16At c 6, u16At c 8⟩
  | .channels =>
    let pulse (i : Nat) : PulseConfig := ⟨u16At c i, u16At c (i + 2), decide (u8At c (i + 4) = 1)⟩
    (∀ v : Fin 4,
        m.channels.valves[v.val] =
          ⟨u16At c (7 * v.val), u16At c (7 * v.val + 2), u16At c (7 * v.val + 4),
            decide (u8At c (7 * v.val + 6) = 1)⟩)
      ∧ m.channels.patch = pulse 28 ∧ m.channels.camera = pulse 33 ∧ m.channels.kick = pulse 38
      ∧ m.channels.gateLead = u16At c 43 ∧ m.channels.gateEnable = decide (u8At c 45 = 1)
  | .register => m.register = ⟨u16At c 0, u16At c 2⟩
  | .sat n =>
    let x := m.sats[n.val]
    x.address = u8At c 0 ∧ x.register = u8At c 1 ∧ x.divider = u8At c 2
      ∧ x.sense = (if u8At c 3 = 0 then .below else .above) ∧ x.threshold = u16At c 4 ∧ x.dwell = u8At c 6
      ∧ x.consequence.code = u8At c 7 ∧ x.enable = decide (u8At c 8 = 1)

/-- R207: the content of a section, field by field. -/
def MachineConfig.sectionItems (m : MachineConfig) : ConfigSection → List Item
  | .shaft => [⟨2, m.shaft.pitch⟩, ⟨1, m.shaft.sense.code⟩, ⟨2, m.shaft.creep⟩, ⟨2, m.shaft.restDwell⟩]
  | .stations =>
    let x := m.stations
    [⟨1, x.patch⟩] ++ ([0, 1, 2, 3] : List (Fin 4)).map (fun v => ⟨1, x.gum[v.val]⟩)
      ++ [⟨1, x.camera⟩, ⟨1, x.gate⟩, ⟨1, x.delivery⟩]
  | .angles =>
    let x := m.angles
    [⟨2, x.webSample⟩, ⟨2, x.camera⟩, ⟨2, x.gate⟩, ⟨2, x.count⟩, ⟨2, x.kick⟩]
  | .channels =>
    let x := m.channels
    ([0, 1, 2, 3] : List (Fin 4)).flatMap
        (fun v =>
          [⟨2, x.valves[v.val].openLead⟩, ⟨2, x.valves[v.val].closeLead⟩, ⟨2, x.valves[v.val].minOn⟩,
           flagItem x.valves[v.val].enable])
      ++ [x.patch, x.camera, x.kick].flatMap (fun k => [⟨2, k.lead⟩, ⟨2, k.width⟩, flagItem k.enable])
      ++ [⟨2, x.gateLead⟩, flagItem x.gateEnable]
  | .register => [⟨2, m.register.printMax⟩, ⟨2, m.register.patchMax⟩]
  | .sat n =>
    let x := m.sats[n.val]
    [⟨1, x.address⟩, ⟨1, x.register⟩, ⟨1, x.divider⟩, ⟨1, x.sense.code⟩, ⟨2, x.threshold⟩, ⟨1, x.dwell⟩,
     ⟨1, x.consequence.code⟩, flagItem x.enable]

/-- The sections of `m` other than `x` are those of `old`, field by field, with their written marks (R184). -/
def MachineConfig.KeepsOthers (m old : MachineConfig) (x : ConfigSection) : Prop :=
  (x ≠ .shaft → m.shaft = old.shaft) ∧ (x ≠ .stations → m.stations = old.stations) ∧ (x ≠ .angles → m.angles = old.angles)
    ∧ (x ≠ .channels → m.channels = old.channels) ∧ (x ≠ .register → m.register = old.register)
    ∧ (∀ n : Fin 8, x ≠ .sat n → m.sats[n.val] = old.sats[n.val])
    ∧ ∀ y : ConfigSection, y ≠ x → m.written[y.index.val] = old.written[y.index.val]

/-- R187: the cross-field checks of START in their order. -/
def MachineConfig.crossChecks (c : MachineConfig) : List Bool :=
  let beforeGate (d : Nat) : Bool := decide (d < c.stations.gate)
  let inCycle (angle : Nat) : Bool := decide (angle < c.shaft.pitch)
  [beforeGate c.stations.patch]
    ++ ([0, 1, 2, 3] : List (Fin 4)).map
      (fun v => c.channels.valves[v.val].enable == false || beforeGate c.stations.gum[v.val])
    ++ [beforeGate c.stations.camera, decide (c.stations.gate < c.stations.delivery), inCycle c.angles.webSample,
      inCycle c.angles.camera, inCycle c.angles.gate, inCycle c.angles.count, inCycle c.angles.kick]

/-- The commands with a fixed payload length (R194, R204): their code and that length. -/
def fixedLengths : List ((PortId → Byte → List Byte → Instr) × Byte × Nat) :=
  [(.identify, 0x01, 0), (.subscribe, 0x02, 2), (.noticeRead, 0x03, 1), (.status, 0x10, 0), (.start, 0x11, 1), (.stop, 0x12, 0),
   (.clearHalt, 0x13, 1), (.runReset, 0x14, 0), (.configRead, 0x19, 1), (.stageOpen, 0x20, 0), (.stageCommit, 0x22, 1),
   (.stageDrop, 0x23, 0), (.slotErase, 0x24, 1), (.slotRead, 0x25, 2), (.slotSignature, 0x26, 1), (.changeoverArm, 0x28, 6),
   (.changeoverCancel, 0x29, 0), (.trackRead, 0x30, 4), (.registerRead, 0x38, 0), (.verdict, 0x40, 7), (.batchClose, 0x48, 0),
   (.batchPeek, 0x49, 0), (.batchAck, 0x4A, 4), (.satelliteRead, 0x50, 1)]

/-- The commands that only read, with their codes: IDENTIFY, STATUS, CONFIG_READ, SLOT_READ, SLOT_SIGNATURE, TRACK_READ,
REGISTER_READ, BATCH_PEEK and SATELLITE_READ. -/
def readCommands : List ((PortId → Byte → List Byte → Instr) × Byte) :=
  [(.identify, 0x01), (.status, 0x10), (.configRead, 0x19), (.slotRead, 0x25), (.slotSignature, 0x26), (.trackRead, 0x30),
   (.registerRead, 0x38), (.batchPeek, 0x49), (.satelliteRead, 0x50)]

end Sys2Proof.Machine
end

