-- ==== Sys2Proof/WellFormed.lean ====
section
/-! DEFINITION. Which terms of `Instr` spell a command that the outside of the part can give, or a step the part can take. -/

namespace Sys2Proof

/-- The points whose slot can be armed void (R59): the knife and the patch window of a profile without a PATCH section, and the
segments of a valve. -/
def TimedPoint.canBeVoid : TimedPoint → Bool
  | .webSample => false
  | .printOpen => false
  | .printClose => false
  | .patchKnife => true
  | .patchOpen => true
  | .patchClose => true
  | .valveOn _ _ => true
  | .valveOff _ _ => true
  | .camera => false
  | .gate => false
  | .count => false
  | .kick => false

/-- A command frame holds at most 61 payload bytes (R191, R200). -/
def payloadFits (payload : List Byte) : Bool := decide (payload.length ≤ Machine.commandPayloadLimit)

/-- Well-formed commands. An event carries only levels, channels, valves and bytes, all of them possible, so that it is always
well-formed. -/
def Instr.wellFormed (i : Instr) : Bool :=
  match i with
  | .hardwareReset _ _ => true
  | .encoderCount _ _ _ => true
  | .indexEdge _ => true
  | .indexMissing => true
  | .blankCreation => true
  | .tick => true
  | .restDwellExpiry => true
  | .webSample _ => true
  | .windowOpen _ => true
  | .windowClose _ => true
  | .captureEdge _ => true
  | .spliceEdge => true
  | .patchKnife => true
  | .valveOn _ _ => true
  | .valveOff _ _ => true
  | .voidSlotConsumed pt => pt.canBeVoid
  | .camera => true
  | .gateDecision => true
  | .countPoint => true
  | .kick => true
  | .pulseEnd _ => true
  | .roundStart => true
  | .transactionAnswer _ _ => true
  | .noAcknowledge _ => true
  | .transactionTimeout => true
  | .transferBegin _ _ => true
  | .frame _ bytes => Machine.malformed bytes
  | .unknown _ bytes => Machine.unknownCode bytes
  | .nop _ _ payload => payloadFits payload
  | .identify _ _ payload => payloadFits payload
  | .subscribe _ _ payload => payloadFits payload
  | .noticeRead _ _ payload => payloadFits payload
  | .status _ _ payload => payloadFits payload
  | .start _ _ payload => payloadFits payload
  | .stop _ _ payload => payloadFits payload
  | .clearHalt _ _ payload => payloadFits payload
  | .runReset _ _ payload => payloadFits payload
  | .configWrite _ _ payload => payloadFits payload
  | .configRead _ _ payload => payloadFits payload
  | .stageOpen _ _ payload => payloadFits payload
  | .stageWrite _ _ payload => payloadFits payload
  | .stageCommit _ _ payload => payloadFits payload
  | .stageDrop _ _ payload => payloadFits payload
  | .slotErase _ _ payload => payloadFits payload
  | .slotRead _ _ payload => payloadFits payload
  | .slotSignature _ _ payload => payloadFits payload
  | .changeoverArm _ _ payload => payloadFits payload
  | .changeoverCancel _ _ payload => payloadFits payload
  | .trackRead _ _ payload => payloadFits payload
  | .registerRead _ _ payload => payloadFits payload
  | .verdict _ _ payload => payloadFits payload
  | .batchClose _ _ payload => payloadFits payload
  | .batchPeek _ _ payload => payloadFits payload
  | .batchAck _ _ payload => payloadFits payload
  | .satelliteRead _ _ payload => payloadFits payload
  | .quadratureErrorSample => true

/-- The port a command comes in on; an event of the machine comes in on none. -/
def Instr.port (i : Instr) : Option PortId :=
  match i with
  | .hardwareReset _ _ => none
  | .encoderCount _ _ _ => none
  | .indexEdge _ => none
  | .indexMissing => none
  | .blankCreation => none
  | .tick => none
  | .restDwellExpiry => none
  | .webSample _ => none
  | .windowOpen _ => none
  | .windowClose _ => none
  | .captureEdge _ => none
  | .spliceEdge => none
  | .patchKnife => none
  | .valveOn _ _ => none
  | .valveOff _ _ => none
  | .voidSlotConsumed _ => none
  | .camera => none
  | .gateDecision => none
  | .countPoint => none
  | .kick => none
  | .pulseEnd _ => none
  | .roundStart => none
  | .transactionAnswer _ _ => none
  | .noAcknowledge _ => none
  | .transactionTimeout => none
  | .transferBegin p _ => some p
  | .frame p _ => some p
  | .unknown p _ => some p
  | .nop p _ _ => some p
  | .identify p _ _ => some p
  | .subscribe p _ _ => some p
  | .noticeRead p _ _ => some p
  | .status p _ _ => some p
  | .start p _ _ => some p
  | .stop p _ _ => some p
  | .clearHalt p _ _ => some p
  | .runReset p _ _ => some p
  | .configWrite p _ _ => some p
  | .configRead p _ _ => some p
  | .stageOpen p _ _ => some p
  | .stageWrite p _ _ => some p
  | .stageCommit p _ _ => some p
  | .stageDrop p _ _ => some p
  | .slotErase p _ _ => some p
  | .slotRead p _ _ => some p
  | .slotSignature p _ _ => some p
  | .changeoverArm p _ _ => some p
  | .changeoverCancel p _ _ => some p
  | .trackRead p _ _ => some p
  | .registerRead p _ _ => some p
  | .verdict p _ _ => some p
  | .batchClose p _ _ => some p
  | .batchPeek p _ _ => some p
  | .batchAck p _ _ => some p
  | .satelliteRead p _ _ => some p
  | .quadratureErrorSample => none

end Sys2Proof
end

