-- ==== Sys2Proof/Certificates/Slice0/Obligations.lean ====
section
/-! DEFINITION. The statements for the provers: what the commands do, rule by rule, and what every step keeps. -/

open Sys2Proof Sys2Proof.Machine

/-! ## Steps and resets -/

/-- A step takes the command at the front of the queue and executes it with the queue's rest. The queue is the model's own
(notes/assumptions/4.md). -/
def Obligations.StepTakesTheFrontCommand : Prop :=
  ∀ (c : Instr) (rest : List Instr) (s : State), s.pending = c :: rest → step s = exec c { s with pending := rest }

/-- R16, R37, R56, R86, R105, R144, R161, R176, R177, R201: what hardware reset leaves, block by block. The levels `a` and `b` are
those of the first sample after it. -/
def Obligations.HardwareResetClearsThePart : Prop :=
  ∀ (a b : Bool) (s : State), ∃ t : State, exec (.hardwareReset a b) s = .next t
    ∧ t.shaft = ⟨a, b, .none, 0, false, 0, 0, 0, List.replicate 16 0, 0, 0, .atRest, 0, ⟨.none, 0⟩⟩
    ∧ (∀ i : Fin 4, t.profiles.slot i = ⟨.empty, none, none⟩) ∧ t.profiles.arm = none
    ∧ t.profiles.staging = ⟨none, none, none, none, Vector.replicate 4 none, false⟩
    ∧ t.track.records = [] ∧ t.track.nextSerial = 1 ∧ t.track.highWater = none ∧ t.track.splicePending = false
    ∧ (∀ pt, (t.slot pt).phase = .unarmed ∧ (t.slot pt).clampNoted = false) ∧ (∀ v : Fin 4, t.sched.segments[v.val] = [])
    ∧ (∀ ch, t.sched.pulse ch = none) ∧ t.sched.gateLevel = false
    ∧ t.sched.outputs = ⟨Vector.replicate 4 false, false, false, false, false⟩
    ∧ (∀ ch, t.channel ch = ⟨.tracking, 0, 0, 0, none, .none⟩) ∧ t.reg.waiting = none ∧ t.reg.knives = []
    ∧ t.batch = ⟨⟨⟨1, none, 0, 0, 0, none, false, false⟩, .none⟩, []⟩
    ∧ t.sat.running = false ∧ t.sat.round = 0 ∧ t.sat.phase = 0 ∧ t.sat.transaction = none
    ∧ (∀ n, t.entry n = ⟨.unknown, none, none, 0, 0⟩)
    ∧ t.run = ⟨.off, ⟨false, false, false, false, false⟩, false⟩
    ∧ t.config.shaft = ⟨0, .normal, 1, 1000⟩ ∧ t.config.stations = ⟨0, Vector.replicate 4 0, 0, 0, 0⟩
    ∧ t.config.angles = ⟨0, 0, 0, 0, 0⟩
    ∧ t.config.channels =
      ⟨Vector.replicate 4 ⟨0, 0, 0, false⟩, ⟨0, 0, false⟩, ⟨0, 0, false⟩, ⟨0, 0, false⟩, 0, false⟩
    ∧ t.config.register = ⟨0, 0⟩ ∧ (∀ n, t.satConfig n = ⟨0, 0, 1, .below, 0, 1, .notice, false⟩)
    ∧ t.config.written = Vector.replicate 13 false
    ∧ (∀ p, (t.port p).notices = [] ∧ (t.port p).lost = 0 ∧ (t.port p).attention = false ∧ (t.port p).pending = none
        ∧ (t.port p).subscription.mask = 0
        ∧ (t.port p).transfer = if (s.port p).transfer = .idle then .idle else .ignored)

/-- The state after reset meets every law that the statements below show each step to keep. -/
def Obligations.ResetStateIsLawful : Prop :=
  State.reset.RunLawful ∧ State.reset.NoticesInOrder ∧ State.reset.BatchesRun ∧ State.reset.OutputsLawful
    ∧ State.reset.SlotsLawful ∧ State.reset.TrackLawful ∧ State.reset.RecordsLawful ∧ State.reset.ValuesClamped

/-! ## Shaft (chapter 1) -/

/-- R1, R2, R9, R10, R11, R70: a sample with one input changed is a count, forward to the right in R1's cycle under NORMAL and to the
left under INVERTED. It moves the position by one, modulo 2^32 × P while homed and 2^48 otherwise, and the millisecond change with
it. A reverse count touches nothing else. A forward count passes, by R2's order, each target and the creation boundary that lay beyond
the position before it and no longer does; it takes what stands passed, from the lowest position on, the creation before the targets
at its boundary and an ON before its own OFF, and sets the valve outputs; where nothing stands passed it does no more. That what a
movement passed stands so in State until it is taken, the bounds of one event, and the place in that order of a slot armed again
behind the position are the model's (notes/assumptions/31.md, 8.md and 29.md). A forward count that makes the index missing is left to
`EncoderFaultsAreTaken`. -/
def Obligations.CountsMoveTheShaft : Prop :=
  ∀ (a b webOk : Bool) (s : State),
    let before := (s.shaft.quadA, s.shaft.quadB)
    let forward : Bool := decide ((before, (a, b)) ∈ encoderSteps) == (s.config.shaft.sense == .normal)
    let m := if s.shaft.homed then 2 ^ 32 * s.pitch else 2 ^ 48
    let position := if forward then (s.shaft.position + 1) % m else (s.shaft.position + (m - 1)) % m
    let shaft :=
      { s.shaft with
        quadA := a, quadB := b, position := position, lastDir := if forward then .forward else .reverse,
        msChange := s.shaft.msChange + if forward then 1 else -1 }
    let moved : State := { s with webOk := webOk, shaft := shaft }
    (before = (a, b) → exec (.encoderCount a b webOk) s = .next { s with webOk := webOk })
    ∧ ((before, (a, b)) ∈ encoderSteps ∨ ((a, b), before) ∈ encoderSteps →
        ¬(forward = true ∧ s.shaft.homed = true ∧ atOrBeyond s.pitch position s.shaft.lastIndex = true
            ∧ forwardDistance s.pitch position s.shaft.lastIndex = 2 * s.pitch) →
          ∃ t : State, exec (.encoderCount a b webOk) s = .next t ∧ t.shaft = shaft ∧ t.webOk = webOk ∧ t.config = s.config
            ∧ t.sat = s.sat ∧ t.time = s.time ∧ t.pending = s.pending
            ∧ (forward = false → t = moved)
            ∧ (forward = true →
                ∃ passed : State, moved.MovedFrom passed s.shaft.position ∧ passed.PassedTo t
                  ∧ (passed.NothingPassed → t = setValveOutputs passed)))

/-- R1, R6, R7, R8, R51, R85, R104, R165: the encoder faults of a homed shaft, of all three kinds. The latch takes the kind and its
detail, the homed flag becomes NO, ENCODER joins the halt causes, the run state becomes HOMING, the present undecided blanks get
TIMING, every slot is UNARMED, every segment and window closed, and the HALT notice, when the set changed, goes before the
RUN_STATE notice. That this HALT already carries the run state HOMING is the model's deduction (notes/assumptions/10.md): the
spec leaves it open. The forward count that makes the index missing is taken by the position, and it is no forward movement. -/
def Obligations.EncoderFaultsAreTaken : Prop :=
  ∀ (s : State) (webOk : Bool), s.shaft.homed = true →
    let swapped := s.setQuadrature (!s.shaft.quadA) (!s.shaft.quadB)
    let a := s.shaft.position % s.pitch
    let slip : Int := if a < s.pitch - s.pitch / 2 then (a : Int) else (a : Int) - (s.pitch : Int)
    let missing (position : Nat) : Prop :=
      atOrBeyond s.pitch position s.shaft.lastIndex = true
        ∧ forwardDistance s.pitch position s.shaft.lastIndex = 2 * s.pitch
    let next := (s.shaft.position + 1) % (2 ^ 32 * s.pitch)
    (∃ t : State, exec .quadratureErrorSample s = .next t ∧ swapped.FaultedTo t .quadrature 0)
    ∧ (∃ t : State, exec (.encoderCount (!s.shaft.quadA) (!s.shaft.quadB) webOk) s = .next t
        ∧ { swapped with webOk := webOk }.FaultedTo t .quadrature 0)
    ∧ (4 < slip.natAbs →
        ∃ t : State, exec (.indexEdge webOk) s = .next t ∧ { s with webOk := webOk }.FaultedTo t .indexOffset slip)
    ∧ (s.shaft.lastDir = .forward → missing s.shaft.position →
        ∃ t : State, exec .indexMissing s = .next t ∧ s.FaultedTo t .indexMissing (2 * s.pitch : Nat))
    ∧ ∀ a b : Bool,
        (s.config.shaft.sense = .normal ∧ ((s.shaft.quadA, s.shaft.quadB), (a, b)) ∈ encoderSteps
          ∨ s.config.shaft.sense = .inverted ∧ ((a, b), (s.shaft.quadA, s.shaft.quadB)) ∈ encoderSteps) →
        missing next →
          ∃ t : State, exec (.encoderCount a b webOk) s = .next t
            ∧ State.FaultedTo
              { s with
                webOk := webOk,
                shaft :=
                  { s.shaft with
                    quadA := a, quadB := b, position := next, lastDir := .forward, msChange := s.shaft.msChange + 1 } }
              t .indexMissing (2 * s.pitch : Nat)

/-- R1, R4, R8: while the homed flag is NO the checks do not run. A quadrature error takes the new levels and no more, an index edge
that does not home is ignored, and no index is missing. -/
def Obligations.UnhomedShaftRaisesNoFault : Prop :=
  ∀ (s : State) (webOk : Bool), s.shaft.homed = false →
    let swapped := s.setQuadrature (!s.shaft.quadA) (!s.shaft.quadB)
    exec .quadratureErrorSample s = .next swapped
    ∧ exec (.encoderCount (!s.shaft.quadA) (!s.shaft.quadB) webOk) s = .next { swapped with webOk := webOk }
    ∧ exec .indexMissing s = .next s
    ∧ (s.run.runState = .off ∨ s.shaft.lastDir ≠ .forward → exec (.indexEdge webOk) s = .next { s with webOk := webOk })

/-- R2, R3, R6, R70: an index edge while homed. A slip of 0 is clean; a slip of 1 to 4 corrects the position by −δ, restarts the last index
position and counts one slip. A correction backward passes nothing; one forward is forward passage: by R2's order it passes what lay
beyond the old position and does not lie beyond the corrected one, takes what stands passed in the order of a forward count, and does
nothing more where nothing does. How State holds what was passed, the bound of one event, and the place in that order of a slot armed
again behind the position are the model's (notes/assumptions/31.md, 8.md and 29.md). -/
def Obligations.IndexEdgeCorrectsThePosition : Prop :=
  ∀ (s : State) (webOk : Bool), s.shaft.homed = true →
    let a := s.shaft.position % s.pitch
    let slip : Int := if a < s.pitch - s.pitch / 2 then (a : Int) else (a : Int) - (s.pitch : Int)
    let position := (((s.shaft.position : Int) - slip) % ((2 ^ 32 * s.pitch : Nat) : Int)).toNat
    let shaft :=
      { s.shaft with position := position, lastIndex := position, slips := Nat.min 65535 (s.shaft.slips + 1) }
    let moved : State := { s with webOk := webOk, shaft := shaft }
    (slip = 0 →
        exec (.indexEdge webOk) s =
          .next { s with webOk := webOk, shaft := { s.shaft with lastIndex := s.shaft.position } })
    ∧ (1 ≤ slip.natAbs → slip.natAbs ≤ 4 →
        ∃ t : State, exec (.indexEdge webOk) s = .next t ∧ t.shaft = shaft ∧ t.webOk = webOk ∧ t.config = s.config
          ∧ t.sat = s.sat ∧ t.time = s.time ∧ t.pending = s.pending
          ∧ (0 < slip → t = moved)
          ∧ (slip < 0 →
              ∃ passed : State, moved.MovedFrom passed s.shaft.position ∧ passed.PassedTo t
                ∧ (passed.NothingPassed → t = setValveOutputs passed)))

/-- R5, R43, R44, R49, R52, R65, R164, R166: a forward index edge in HOMING homes the part to c0, the next serial. Records that a fault
left are flushed first: TRACK_FLUSHED names the oldest and the newest, and a RETIRING slot that the open batch does not carry becomes
READY, with PROFILE_RETIRED. An armed changeover is then offered c0 (`ChangeoverIsTakenAtACreation`), and blank c0, of the ACTIVE slot,
is the one record, with SPLICE where splice pending was YES. The run state is LIVE, with RUN_STATE for cause HOMED posted after these;
batch counter, register monitor and halt causes are kept so far. At last the slots are armed for c0 (`HomingArmsTheSlots`), and what
stands passed is taken in R70's order; how State holds what stands passed, the bound of one event, and the place in that order of a
slot armed again behind the position are the model's (notes/assumptions/31.md, 8.md and 29.md). -/
def Obligations.ForwardIndexEdgeHomes : Prop :=
  ∀ (webOk : Bool) (s : State), s.shaft.homed = false → s.run.runState = .homing → s.shaft.lastDir = .forward →
    1 ≤ s.pitch → s.config.stations.delivery ≤ 31 →
      let c0 := s.track.nextSerial
      let position := (c0 - 1).toNat * s.pitch
      let shaft := { s.shaft with position := position, homed := true, lastIndex := position, slips := 0 }
      let homed : State := { s with webOk := webOk, shaft := shaft }
      let carried (i : Fin 4) : Prop := ∃ o, s.batch.current.body.order = some o ∧ o.slot = i
      let retiring (i : Fin 4) : Prop := (s.profiles.slot i).state = .retiring
      ∃ t flushed : State, exec (.indexEdge webOk) s = .next t
        ∧ t.shaft = shaft
        ∧ t.run.runState = .live ∧ t.track.records.map Blank.serial = [c0] ∧ t.track.nextSerial = c0 + 1
        ∧ t.track.highWater = some c0 ∧ t.track.splicePending = false
        ∧ (s.track.splicePending = true → ∀ b ∈ t.track.records, b.defects.splice = true)
        ∧ (s.track.records = [] → flushed = homed)
        ∧ (∀ oldest newest, s.track.records.head? = some oldest → s.track.records.getLast? = some newest →
            let notice : Notice := .trackFlushed oldest.serial newest.serial
            let emptied : State := { homed with track := { s.track with records := [] } }
            ((∀ i, retiring i → carried i) → flushed = { emptied with ports := s.portsAfter [notice] })
            ∧ ∀ i, retiring i → (∀ j, retiring j → j = i) → ¬carried i →
                flushed =
                  { emptied with
                    profiles := s.profiles.setState i .ready
                    ports := s.portsAfter [notice, .profileRetired i (s.profiles.orderOf i)] })
        ∧ (∀ a, (changeoverAt c0 flushed).profiles.active = some a →
            let offered := changeoverAt c0 flushed
            let permit := decide (s.run.causes = CauseSet.empty)
            let record : Blank :=
              { serial := c0, slot := a, presence := .pending,
                defects := { DefectSet.empty with splice := s.track.splicePending },
                printError := none, patchError := none, cameraDone := false, verdicts := [], outcome := .pending, counted := .no }
            let arm : Option ChangeoverArm :=
              match offered.profiles.arm with
              | some ⟨i, .splice false⟩ => some ⟨i, .splice s.track.splicePending⟩
              | other => other
            let live : State :=
              { offered with
                track := ⟨[record], c0 + 1, some c0, false, false⟩
                profiles := { offered.profiles with arm := arm }
                run := ⟨.live, s.run.causes, permit⟩
                ports := offered.portsAfter [.runState .homing .live .homed (some a) (some c0) (c0 + 1) s.run.causes permit] }
            ∃ armed : State, live.ArmedAtHoming armed c0 ∧ armed.PassedTo t)
        ∧ t.config = s.config ∧ t.sat = s.sat ∧ t.time = s.time ∧ t.webOk = webOk ∧ t.pending = s.pending

/-- R61, R64, R65: at the homing to c0 each slot of a point at position d is armed for cycle c0 + d, so for blank c0, with the angle of
that blank's profile or of the configuration and its target computed (`TargetsAreCompensatedAndClamped`,
`ValveOffStaysBehindItsOn`). The kick and the slots of disabled valves are left as they stand. Nothing else changes, but that a clamp
joins TIMING to blank c0. -/
def Obligations.HomingArmsTheSlots : Prop :=
  ∀ (c0 : Serial) (s : State),
    s.ArmedAtHoming (armAtHoming c0 s) c0
    ∧ ∀ pt : TimedPoint,
        let x := (armAtHoming c0 s).slot pt
        if pt = .kick ∨ (∃ v k : Fin 4, (pt = .valveOn v k ∨ pt = .valveOff v k) ∧ s.config.channels.valves[v.val].enable = false)
        then x = s.slot pt
        else x.phase = .armed ∧ x.cycle = c0 + BitVec.ofNat 32 (stationOf s.config pt) ∧ x.serial = c0
          ∧ x.angle = nominalAngle s.config (s.profileOf c0) pt

/-- R9, R38, R42, R43, R45, R70: the creation of the next blank s at the creation boundary, where no armed trigger is met. The record
of R38 joins the end of the queue, the serials move on, the record of s − d_del − 1 is gone, and each WAITING slot is armed for
cycle s, with its target; what stands passed after it is taken with it, in R70's order. R34: where a record is removed, a RETIRING slot
that neither a record nor the open batch references becomes READY, with PROFILE_RETIRED, and else slots and ports stand as before. R31:
a blank created with SPLICE is shown to a SPLICE trigger. Where no movement has left the boundary passed there is no creation
(the model's choice, notes/assumptions/5.md and 31.md). The bound of one event, and the place in R70's order of a slot armed again behind
the position, are the model's too (notes/assumptions/8.md and 29.md). A trigger that is met is left to `ChangeoverIsTakenAtACreation`;
where a target stands passed after the creation, only the taking of it is stated here. -/
def Obligations.BlankIsCreatedAtTheBoundary : Prop :=
  ∀ (s : State) (a : Fin 4) (h : Serial), s.track.highWater = some h → s.config.stations.delivery ≤ 31 →
    let n := s.track.nextSerial
    let past := n - BitVec.ofNat 32 (s.config.stations.delivery + 1)
    let reached := s.shaft.homed && s.track.boundaryPassed
    let record : Blank :=
      { serial := n, slot := a, presence := .pending,
        defects := { DefectSet.empty with splice := s.track.splicePending },
        printError := none, patchError := none, cameraDone := false, verdicts := [], outcome := .pending, counted := .no }
    let records := (s.track.records.filter fun b => !(b.serial == past)) ++ [record]
    let removed := ∃ b ∈ s.track.records, b.serial = past
    let retiring (i : Fin 4) : Prop := (s.profiles.slot i).state = .retiring
    let referenced (i : Fin 4) : Prop :=
      (∃ b ∈ records, b.slot = i) ∨ ∃ o, s.batch.current.body.order = some o ∧ o.slot = i
    let arm : Option ChangeoverArm :=
      match s.profiles.arm with
      | some ⟨i, .splice false⟩ => some ⟨i, .splice s.track.splicePending⟩
      | other => other
    (reached = false → exec .blankCreation s = .next s)
    ∧ (reached = true → ∃ t : State, exec .blankCreation s = .next t ∧ (createBlank s).PassedTo t)
    ∧ (reached = true → s.profiles.active = some a → (∀ arm, s.profiles.arm = some arm → arm.trigger.met n = false) →
        (createBlank s).NothingPassed →
          ∃ t : State, exec .blankCreation s = .next t
            ∧ t.track.records = records
            ∧ t.track.nextSerial = n + 1 ∧ t.track.highWater = some n ∧ t.track.splicePending = false
            ∧ (∀ pt : TimedPoint, pt ∈ [.webSample, .printOpen, .printClose] → (s.slot pt).phase = .waiting →
                (t.slot pt).phase = .armed ∧ (t.slot pt).cycle = n ∧ (t.slot pt).serial = n
                  ∧ t.slot pt = (State.armedFor { s with track := t.track } pt n).slot pt)
            ∧ (¬removed ∨ (∀ i, retiring i → referenced i) → t.profiles = { s.profiles with arm := arm } ∧ t.ports = s.ports)
            ∧ (∀ i, removed → retiring i → (∀ j, retiring j → j = i) → ¬referenced i →
                t.profiles = { s.profiles.setState i .ready with arm := arm }
                  ∧ t.ports = s.portsAfter [.profileRetired i (s.profiles.orderOf i)])
            ∧ t.shaft = s.shaft ∧ t.reg = s.reg ∧ t.batch = s.batch ∧ t.sat = s.sat ∧ t.run = s.run ∧ t.config = s.config
            ∧ t.webOk = s.webOk ∧ t.time = s.time ∧ t.pending = s.pending)

/-- R11, R12, R13, R68: a tick. The millisecond change enters the window, S is the window's sum W held to 0 to 65,535, the cycles per
minute follow S, and the motion flag and the rest counter follow |W|. Then in LIVE, with the new S, every compensated target that
is armed is computed anew, after the segments closed where the flag became AT_REST; what then stands passed is taken, and the
valve outputs are set; outside LIVE nothing else changes. That TICK moves the time base to the next multiple of 1,000 µs and takes
what falls due on the way, each at its moment with the effect of its own command, in which order and how many at most, is the model's
choice (notes/assumptions/4.md, 7.md and 8.md). So are, in LIVE, how State holds what stands passed, the bound of one event, and the
place in R70's order of a slot armed again behind the position, at a tick at which S jumps too (notes/assumptions/31.md, 8.md and 29.md). R83, R148, R151: afterwards nothing is due; each pulse whose end time was reached has
ended, a round whose moment was reached has started with its phase from there, and a transaction whose 1,000 µs were reached has
timed out, with its entry's no-answer, while one whose were not is still on the bus; where nothing was due, only the time base and the
round phase have moved. -/
def Obligations.TickUpdatesSpeedAndMotion : Prop :=
  ∀ s : State,
    let window := s.shaft.window.drop 1 ++ [s.shaft.msChange]
    let w := window.sum
    let speed := if w < 0 then 0 else if 65535 < w then 65535 else w.toNat
    let c := s.config.shaft
    let rest := if c.creep ≤ w.natAbs then 0 else Nat.min (s.shaft.restCounter + 1) c.restDwell
    let motion : MotionFlag :=
      if c.creep ≤ w.natAbs then .moving
      else if rest = c.restDwell ∧ s.shaft.motion = .moving then .atRest else s.shaft.motion
    let shaft :=
      { s.shaft with
        window := window, msChange := 0, speed := speed,
        cyclesPerMinute := if c.pitch = 0 then 0 else speed * 3750 / c.pitch, restCounter := rest, motion := motion }
    let tick := (s.time / 1000 + 1) * 1000
    let later := advanceTime timedLimit tick s
    ∃ t : State, exec .tick s = .next t ∧ t.time = tick ∧ t.shaft = shaft
      ∧ t.config = s.config ∧ t.webOk = s.webOk ∧ t.pending = s.pending
      ∧ State.ScheduledTo { later with shaft := shaft } t (s.shaft.motion == .moving && motion == .atRest)
      ∧ s.TimedTo later tick ∧ (∀ event moment, later.Awaits event moment → tick < moment)
      ∧ later.sched = s.sched.withEnded (s.sched.endsBy tick)
      ∧ (∀ moment, s.Awaits .roundStart moment → moment ≤ tick →
          later.sat.round = (if s.sat.firstRound.isSome then 0 else s.sat.round + 1) ∧ later.sat.firstRound = none
            ∧ later.sat.phase = tick - Nat.max s.time moment)
      ∧ (∀ x, s.sat.transaction = some x → s.time < x.start + 1000 →
          (tick < x.start + 1000 → later.sat.transaction = some x ∧ later.sat.bus = s.sat.bus ∧ ∀ n, later.entry n = s.entry n)
          ∧ (x.start + 1000 ≤ tick →
              IsTimedOut x.address x.register later.sat.bus
                ∧ ∀ n, later.entry n = if n = x.entry ∧ x.discard = false then (s.entry n).unanswered else s.entry n))
      ∧ ((∀ m ∈ s.moments, tick < m.time) →
          later =
            { s with
              time := tick
              sat :=
                if s.sat.running && s.sat.firstRound.isNone then { s.sat with phase := s.sat.phase + (tick - s.time) }
                else s.sat })

/-- R13, R68, R81, R82: the rest counter stands at the rest dwell, below the creep threshold, while the flag is MOVING. The flag
becomes AT_REST; in LIVE every open segment closes, the scheduler takes its part of a tick and every GUM output is inactive, and
outside LIVE nothing else changes. Where it does not stand so, there is no such event (the model's choice,
notes/assumptions/5.md). In the scheduler's part, how State holds what stands passed, the bound of one event, and the place in R70's
order of a slot armed again behind the position are the model's (notes/assumptions/31.md, 8.md and 29.md). -/
def Obligations.RestClosesTheValves : Prop :=
  ∀ s : State,
    let w := s.shaft.window.sum
    let reached := s.shaft.motion = .moving ∧ s.shaft.restCounter = s.config.shaft.restDwell ∧ w.natAbs < s.config.shaft.creep
    let resting : State := { s with shaft := { s.shaft with motion := .atRest } }
    (¬reached → exec .restDwellExpiry s = .next s)
    ∧ (reached → s.run.runState ≠ .live → exec .restDwellExpiry s = .next resting)
    ∧ (reached → s.run.runState = .live →
        ∃ t : State, exec .restDwellExpiry s = .next t ∧ t.shaft = resting.shaft
          ∧ (∀ v : Fin 4, t.sched.segments[v.val] = [] ∧ t.sched.outputs.gum[v.val] = false)
          ∧ resting.ScheduledTo t true
          ∧ t.config = s.config ∧ t.sat = s.sat ∧ t.time = s.time ∧ t.webOk = s.webOk ∧ t.pending = s.pending)

/-! ## Profile store and tracking queue (chapters 2 and 3) -/

/-- R30, R33, R34: at the creation of blank `n` an armed changeover whose trigger is met is taken. The staged slot becomes ACTIVE
and the arm is cleared; the old slot becomes RETIRING, or READY at once where no record and no open batch carries it; CHANGEOVER is
posted, then PROFILE_RETIRED. A trigger that is not met takes nothing, and without an arm there is nothing to take. -/
def Obligations.ChangeoverIsTakenAtACreation : Prop :=
  ∀ (n : Serial) (s : State),
    (s.profiles.arm = none → changeoverAt n s = s)
    ∧ ∀ (arm : ChangeoverArm) (a : Fin 4), s.SlotsLawful → s.profiles.arm = some arm → s.profiles.active = some a →
      let met : Bool :=
        match arm.trigger with
        | .next => true
        | .serial k => decide (n = k)
        | .splice seen => seen
      let carried := s.references a
      let t := changeoverAt n s
      (met = false → t = s)
      ∧ (met = true →
          (t.profiles.slot arm.slot).state = .active ∧ (t.profiles.slot a).state = (if carried then .retiring else .ready)
          ∧ (∀ i, i ≠ arm.slot → i ≠ a → t.profiles.slot i = s.profiles.slot i)
          ∧ (∀ i, (t.profiles.slot i).content = (s.profiles.slot i).content)
          ∧ t.profiles.arm = none ∧ t.profiles.staging = s.profiles.staging
          ∧ (∀ p, t.port p =
              s.portAfter p
                (.changeover arm.slot (s.profiles.orderOf arm.slot) n
                  :: if carried then [] else [.profileRetired a (s.profiles.orderOf a)]))
          ∧ t.track = s.track ∧ t.batch = s.batch ∧ t.run = s.run ∧ t.sched = s.sched ∧ t.shaft = s.shaft ∧ t.reg = s.reg
          ∧ t.sat = s.sat ∧ t.config = s.config ∧ t.webOk = s.webOk ∧ t.time = s.time ∧ t.pending = s.pending)

/-- R31, R48, R49: a SPLICE edge marks the newest blank in LIVE, once, and shows a SPLICE trigger its first marking; in HOMING it
sets splice pending; in OFF it has no effect. -/
def Obligations.SpliceEdgeMarksTheNewestBlank : Prop :=
  ∀ s : State,
    (s.run.runState = .off → exec .spliceEdge s = .next s)
    ∧ (s.run.runState = .homing →
        exec .spliceEdge s = .next { s with track := { s.track with splicePending := true } })
    ∧ (∀ (h : Serial) (b : Blank), s.run.runState = .live → s.track.highWater = some h → s.track.find h = some b →
        (b.defects.splice = true → exec .spliceEdge s = .next s)
        ∧ (b.defects.splice = false →
            exec .spliceEdge s =
              .next
                { s with
                  profiles :=
                    { s.profiles with
                      arm :=
                        match s.profiles.arm with
                        | some ⟨slot, .splice _⟩ => some ⟨slot, .splice true⟩
                        | other => other }
                  track :=
                    { s.track with
                      records := s.track.records.map fun r : Blank =>
                        if r.serial = h then { r with defects := { r.defects with splice := true } } else r } }))

/-- R46, R72, R94, R96: the web sample of blank `x.serial` reads WEB_OK: a presence that is PENDING becomes PRESENT or ABSENT, and the
slot becomes WAITING for the next cycle. A PRINT judgement that waits for this blank is made now: judged where the blank is
PRESENT, discarded where it is ABSENT. Nothing else changes. -/
def Obligations.WebSampleSetsThePresence : Prop :=
  ∀ (webOk : Bool) (s : State) (b : Blank),
    let x := s.slot .webSample
    let waiting : ActionSlot := { x with phase := .waiting, cycle := x.cycle + 1, serial := x.serial + 1, passed := false }
    let sampled : State :=
      { s with
        webOk := webOk
        track :=
          { s.track with
            records := s.track.records.map fun r : Blank =>
              if r.serial = x.serial then
                if r.presence = Presence.pending then { r with presence := if webOk then .present else .absent } else r
              else r } }
    let released : State := { sampled with reg := { sampled.reg with waiting := none } }
    s.due .webSample = true → x.angle.isSome = true → s.track.find x.serial = some b → b.presence = .pending →
      ((∀ w, s.reg.waiting = some w → w.serial ≠ x.serial) →
          exec (.webSample webOk) s = .next (sampled.setSlot .webSample waiting))
      ∧ ∀ w, s.reg.waiting = some w → w.serial = x.serial →
          (webOk = false → exec (.webSample webOk) s = .next (released.setSlot .webSample waiting))
          ∧ ∀ p, webOk = true → s.profiles.contentOf b.slot = some p →
              exec (.webSample webOk) s =
                .next ((released.judgedTo .print w p.header.haltOnLoss).setSlot .webSample waiting)

/-! ## Register monitor (chapter 5) -/

/-- R73, R88: the opening of a window: the channel takes a window record of the slot's blank with the expected angle, window and
tolerance of that blank's own section, the slot's cycle and no capture. The other channel and the rest are left alone. -/
def Obligations.WindowOpensWithItsBlanksSection : Prop :=
  ∀ (ch : RegChannel) (s : State) (p : Profile) (e w t : Nat),
    let pt := windowOpenPoint ch
    let x := s.slot pt
    let opened := s.setChannel ch { s.channel ch with window := some ⟨x.serial, e, w, t, x.cycle, none⟩ }
    s.FiresOnce pt → x.angle.isSome = true → s.profileOf x.serial = some p →
      (ch = .print → p.print = ⟨e, w, t⟩) → (ch = .patch → ∃ knife, p.patch = some ⟨knife, e, w, t⟩) →
        ∃ u : State, exec (.windowOpen ch) s = .next u
          ∧ (ch = .print →
              u = opened.setSlot pt { x with phase := .waiting, cycle := x.cycle + 1, serial := x.serial + 1, passed := false })
          ∧ (ch = .patch → opened.RearmedTo u pt x.cycle)

/-- R89: a capture edge is held when the run state is LIVE, the window is OPEN without a capture, the last direction is FORWARD and
the position is at or beyond (c − 1) × P + e − W and behind (c − 1) × P + e + W. Any other edge is ignored, and so is every edge
while the window is CLOSED. -/
def Obligations.CaptureEdgeIsHeldInsideItsWindow : Prop :=
  ∀ (ch : RegChannel) (s : State),
    ((s.channel ch).window = none → exec (.captureEdge ch) s = .next s)
    ∧ ∀ w : WindowRecord, (s.channel ch).window = some w → w.w ≤ w.e →
        let start := (w.cycle - 1).toNat * s.pitch
        let m := 2 ^ 32 * s.pitch
        let held :=
          s.run.runState = .live ∧ w.capture = none ∧ s.shaft.lastDir = .forward
            ∧ atOrBeyond s.pitch s.shaft.position ((start + (w.e - w.w)) % m) = true
            ∧ atOrBeyond s.pitch s.shaft.position ((start + w.e + w.w) % m) = false
        (held →
            exec (.captureEdge ch) s =
              .next
                (s.setChannel ch
                  { s.channel ch with
                    window := some { w with capture := some (forwardDistance s.pitch s.shaft.position start) } }))
        ∧ (¬held → exec (.captureEdge ch) s = .next s)

/-- R91 to R94, R96: a window result that is not judged. A PRINT result of an ABSENT blank is discarded and one of a PENDING blank
waits; a PATCH result whose knife did not fire is discarded. -/
def Obligations.WindowResultsAreDiscardedOrWait : Prop :=
  ∀ (ch : RegChannel) (s : State) (w : WindowRecord),
    let pt := windowClosePoint ch
    let x := s.slot pt
    let closed := s.setChannel ch { s.channel ch with window := none }
    let waiting : ActionSlot := { x with phase := .waiting, cycle := x.cycle + 1, serial := x.serial + 1, passed := false }
    s.FiresOnce pt → x.angle.isSome = true → (s.channel ch).window = some w →
      (∀ b, ch = .print → s.track.find w.serial = some b →
        (b.presence = .absent → exec (.windowClose ch) s = .next (closed.setSlot pt waiting))
        ∧ (b.presence = .pending →
            exec (.windowClose ch) s =
              .next ({ closed with reg := { closed.reg with waiting := some w } }.setSlot pt waiting)))
      ∧ (ch = .patch → (∀ k, s.reg.knives.find? (fun k => k.serial == w.serial) = some k → k.outcome = .suppressed) →
          ∃ u : State, exec (.windowClose ch) s = .next u
            ∧ { closed with
                reg := { closed.reg with knives := s.reg.knives.filter fun k => !(k.serial == w.serial) } }.RearmedTo
                u pt x.cycle)

/-- R91, R93 to R95, R97, R99 to R101: a window result is judged, of a PRESENT blank on PRINT and of a fired knife on PATCH. The
error is written and the value integrated where there is a capture; the counts, the channel state and the last judgement follow;
entering LOST or leaving it posts REGISTER, and entering it hands REGISTER where the blank's HEADER says so. The window is CLOSED,
the knife's outcome used up, and the slot waits or is armed for the next cycle. Nothing else changes. -/
def Obligations.WindowResultsAreJudged : Prop :=
  ∀ (ch : RegChannel) (s : State) (w : WindowRecord) (b : Blank) (p : Profile),
    let pt := windowClosePoint ch
    let x := s.slot pt
    let closed := s.setChannel ch { s.channel ch with window := none }
    s.FiresOnce pt → x.angle.isSome = true → (s.channel ch).window = some w → s.track.find w.serial = some b →
      s.profiles.contentOf b.slot = some p →
        (ch = .print → b.presence = .present →
          exec (.windowClose ch) s =
            .next
              ((closed.judgedTo ch w p.header.haltOnLoss).setSlot pt
                { x with phase := .waiting, cycle := x.cycle + 1, serial := x.serial + 1, passed := false }))
        ∧ (ch = .patch → (∃ k, s.reg.knives.find? (fun k => k.serial == w.serial) = some k ∧ k.outcome = .fired) →
            ∃ u : State, exec (.windowClose ch) s = .next u
              ∧ State.RearmedTo
                (State.judgedTo
                  { closed with reg := { closed.reg with knives := s.reg.knives.filter fun k => !(k.serial == w.serial) } }
                  ch w p.header.haltOnLoss)
                u pt x.cycle)

/-! ## Action scheduler (chapter 4) -/

/-- R59, R60, R61, R63: the target of a slot other than a valve OFF. Of a compensated point, with the advance A, k the patch correction
for the knife and 0 else, the relative angle a + k − A is held to −(P div 2) to P − 1, and the target is (c − 1) × P plus it, modulo
M; where a clamp engages, TIMING joins the slot's blank once per arming. Of an uncompensated point the target is (c − 1) × P + a,
and of any void slot (c − 1) × P, modulo M. R64, R68: a target at or behind the position, by R2's order, stands passed from then on
(notes/assumptions/31.md). -/
def Obligations.TargetsAreCompensatedAndClamped : Prop :=
  ∀ (s : State) (pt : TimedPoint),
    let x := s.slot pt
    let start := (x.cycle - 1).toNat * s.pitch
    let m := 2 ^ 32 * s.pitch
    let aimed (y : Nat) : ActionSlot :=
      { x with target := y, passed := decide (forwardDistance s.pitch s.shaft.position y < 2 ^ 31 * s.pitch) }
    (x.angle = none → retarget pt s = s.setSlot pt (aimed (start % m)))
    ∧ (∀ a, x.angle = some a → leadOf s.config pt = none → retarget pt s = s.setSlot pt (aimed ((start + a) % m)))
    ∧ ∀ a lead : Nat,
        let advance := (s.shaft.speed * lead + 8000) / 16000
        let k : Int := if pt = .patchKnife then s.reg.patch.value else 0
        let r : Int := (a : Int) + k - (advance : Int)
        let low : Int := -((s.pitch / 2 : Nat) : Int)
        let high : Int := (s.pitch : Int) - 1
        let clamped := r < low ∨ high < r
        let target := ((start : Int) + Max.max low (Min.min high r)) % (m : Int)
        1 ≤ s.pitch → x.angle = some a → leadOf s.config pt = some lead → (∀ v j, pt ≠ .valveOff v j) →
          (¬clamped ∨ x.clampNoted = true → retarget pt s = s.setSlot pt (aimed target.toNat))
          ∧ (clamped → x.clampNoted = false →
              retarget pt s = addDefect x.serial .timing (s.setSlot pt { aimed target.toNat with clampNoted := true }))

/-- R61, R62, R63: the target of a valve OFF is held the minimum on length behind its ON: behind the ON target at which the open
instance fired, or behind the ON's own relative angle of this moment; and at P − 1 at most. The lower clamp acts on the OFF's own
angle and the upper one on the angle so lifted, and where either engages TIMING joins the slot's blank once per arming: that
order is the model's choice (notes/assumptions/11.md), as it is that a clamp of the ON's own relative angle within the floor
adds nothing to the OFF's (notes/assumptions/30.md). R64, R68: a target at or behind the position stands
passed from then on (notes/assumptions/31.md). -/
def Obligations.ValveOffStaysBehindItsOn : Prop :=
  ∀ (s : State) (v j : Fin 4) (a on : Nat),
    let pt := TimedPoint.valveOff v j
    let x := s.slot pt
    let c := s.config.channels.valves[v.val]
    let low : Int := -((s.pitch / 2 : Nat) : Int)
    let high : Int := (s.pitch : Int) - 1
    let start := (x.cycle - 1).toNat * s.pitch
    let r : Int := (a : Int) - (((s.shaft.speed * c.closeLead + 8000) / 16000 : Nat) : Int)
    let onRelative : Int :=
      match s.sched.segments[v.val].find? (fun i => i.segment == j && i.cycle == x.cycle) with
      | some i => signedDistance s.pitch i.onTarget start
      | none => Max.max low (Min.min high ((on : Int) - (((s.shaft.speed * c.openLead + 8000) / 16000 : Nat) : Int)))
    let lifted := Max.max (Max.max low r) (onRelative + (c.minOn : Int))
    let clamped := r < low ∨ high < lifted
    let target := (((start : Int) + Min.min high lifted) % ((2 ^ 32 * s.pitch : Nat) : Int)).toNat
    let aimed : ActionSlot :=
      { x with target := target, passed := decide (forwardDistance s.pitch s.shaft.position target < 2 ^ 31 * s.pitch) }
    1 ≤ s.pitch → x.angle = some a → x.onAngle = some on →
      (¬clamped ∨ x.clampNoted = true → retarget pt s = s.setSlot pt aimed)
      ∧ (clamped → x.clampNoted = false →
          retarget pt s = addDefect x.serial .timing (s.setSlot pt { aimed with clampNoted := true }))

/-- R74, R83, R92: the knife of a PRESENT blank without SPLICE fires while the machine is MOVING and no PATCH_INHIBIT is in force:
on an enabled channel the PATCH pulse runs for its width from now, and FIRED is handed to the register monitor. Otherwise
SUPPRESSED is handed, and a PRESENT blank gets NO_PATCH. That the outcome joins the list at its end is the model's choice
(notes/assumptions/32.md). -/
def Obligations.PatchKnifeFiresOrIsSuppressed : Prop :=
  ∀ (s : State) (b : Blank),
    let x := s.slot .patchKnife
    let c := s.config.channels.patch
    let fires := b.presence = .present ∧ b.defects.splice = false ∧ s.shaft.motion = .moving ∧ s.inForce .patchInhibit = false
    let kept := s.reg.knives.filter fun k => !serialNewer (x.serial - 1) k.serial
    s.FiresOnce .patchKnife → x.angle.isSome = true → s.track.find x.serial = some b →
      ∃ t : State, exec .patchKnife s = .next t
        ∧ (fires →
            State.RearmedTo
              { s with
                sched :=
                  if c.enable then
                    { s.sched with
                      patchPulse := some (s.time + c.width), outputs := { s.sched.outputs with patch := true } }
                  else s.sched
                reg := { s.reg with knives := kept ++ [⟨x.serial, .fired⟩] } } t .patchKnife x.cycle)
        ∧ (¬fires →
            State.RearmedTo
              { s with
                track :=
                  { s.track with
                    records :=
                      if b.presence = .present then
                        s.track.records.map fun r : Blank =>
                          if r.serial = x.serial then { r with defects := { r.defects with noPatch := true } } else r
                      else s.track.records }
                reg := { s.reg with knives := kept ++ [⟨x.serial, .suppressed⟩] } } t .patchKnife x.cycle)

/-- R80, R82: the ON of a segment opens it, recording the target it fired at, when the machine is MOVING, its blank is PRESENT and no
GUM_INHIBIT is in force. Otherwise it opens nothing, and a PRESENT blank gets NO_GUM. Then the valve outputs follow the segments. -/
def Obligations.ValveOnOpensItsSegment : Prop :=
  ∀ (s : State) (v j : Fin 4) (b : Blank),
    let pt := TimedPoint.valveOn v j
    let x := s.slot pt
    let fires := s.shaft.motion = .moving ∧ b.presence = .present ∧ s.inForce .gumInhibit = false
    s.FiresOnce pt → x.angle.isSome = true → s.track.find x.serial = some b →
      ∃ t : State, exec (.valveOn v j) s = .next (setValveOutputs t)
        ∧ (∀ i : Fin 4, (setValveOutputs t).sched.outputs.gum[i.val] =
            (s.config.channels.valves[i.val].enable && !t.sched.segments[i.val].isEmpty))
        ∧ (fires →
            State.RearmedTo
              { s with
                sched :=
                  { s.sched with
                    segments := s.sched.segments.set v.val (s.sched.segments[v.val] ++ [⟨j, x.cycle, x.target⟩]) } }
              t pt x.cycle)
        ∧ (¬fires →
            State.RearmedTo
              { s with
                track :=
                  { s.track with
                    records :=
                      if b.presence = .present then
                        s.track.records.map fun r : Blank =>
                          if r.serial = x.serial then { r with defects := { r.defects with noGum := true } } else r
                      else s.track.records } } t pt x.cycle)

/-- R81, R82: the OFF of a segment removes the instance of its own cycle from the valve's open segment set, if it is there, and adds
no defect of its own. Then the valve outputs follow the segments. -/
def Obligations.ValveOffClosesItsSegment : Prop :=
  ∀ (s : State) (v j : Fin 4),
    let pt := TimedPoint.valveOff v j
    let x := s.slot pt
    let left := s.sched.segments[v.val].filter fun i => !(i.segment == j && i.cycle == x.cycle)
    s.FiresOnce pt → x.angle.isSome = true →
      ∃ t : State, exec (.valveOff v j) s = .next (setValveOutputs t)
        ∧ (∀ i : Fin 4, (setValveOutputs t).sched.outputs.gum[i.val] =
            (s.config.channels.valves[i.val].enable && !t.sched.segments[i.val].isEmpty))
        ∧ State.RearmedTo { s with sched := { s.sched with segments := s.sched.segments.set v.val left } } t pt x.cycle

/-- R59, R66: a void slot is consumed: it hands nothing, drives no output and adds no defect, and is armed for the next cycle. -/
def Obligations.VoidSlotIsConsumed : Prop :=
  ∀ (s : State) (pt : TimedPoint), pt.canBeVoid = true → s.FiresOnce pt → (s.slot pt).angle = none →
    ∃ t : State, exec (.voidSlotConsumed pt) s = .next (setValveOutputs t) ∧ s.RearmedTo t pt (s.slot pt).cycle

/-- R75, R83, R106: the camera of a PRESENT blank whose profile uses the camera: camera done becomes YES, an enabled channel's CAMERA
pulse runs for its width, and BLANK_AT_CAMERA is posted. Otherwise the slot is consumed without effect. -/
def Obligations.CameraFiresForPresentBlanks : Prop :=
  ∀ (s : State) (b : Blank) (p : Profile),
    let x := s.slot .camera
    let c := s.config.channels.camera
    let fires := p.header.cameraUse = true ∧ b.presence = .present
    s.FiresOnce .camera → x.angle.isSome = true → s.track.find x.serial = some b → s.profiles.contentOf b.slot = some p →
      ∃ t : State, exec .camera s = .next t
        ∧ (fires →
            State.RearmedTo
              { s with
                track :=
                  { s.track with
                    records := s.track.records.map fun r : Blank => if r.serial = x.serial then { r with cameraDone := true } else r }
                sched :=
                  if c.enable then
                    { s.sched with
                      cameraPulse := some (s.time + c.width), outputs := { s.sched.outputs with camera := true } }
                  else s.sched
                ports := (post (.blankAtCamera x.serial p.header.order p.header.expected) s).ports } t .camera x.cycle)
        ∧ (¬fires → s.RearmedTo t .camera x.cycle)

/-- R79, R83: the kick fires once: on an enabled channel the KICK pulse runs for its width from now, and the slot becomes UNARMED.
R83: a pulse whose end time is reached ends, its output inactive, and touches nothing else; before that there is no such event
(the model's choice, notes/assumptions/5.md). -/
def Obligations.KickAndPulseEnds : Prop :=
  (∀ s : State,
    let x := s.slot .kick
    let c := s.config.channels.kick
    s.due .kick = true → x.angle.isSome = true →
      exec .kick s =
        .next
          (State.setSlot
            { s with
              sched :=
                if c.enable then
                  { s.sched with kickPulse := some (s.time + c.width), outputs := { s.sched.outputs with kick := true } }
                else s.sched } .kick { x with phase := .unarmed, passed := false }))
  ∧ ∀ (s : State) (ch : PulseChannel) (ends : Nat), s.sched.pulse ch = some ends →
      (s.time < ends → exec (.pulseEnd ch) s = .next s)
      ∧ (ends ≤ s.time →
          exec (.pulseEnd ch) s =
            .next
              { s with
                sched :=
                  { s.sched with
                    patchPulse := if ch = .patch then none else s.sched.patchPulse
                    cameraPulse := if ch = .camera then none else s.sched.cameraPulse
                    kickPulse := if ch = .kick then none else s.sched.kickPulse
                    outputs :=
                      { s.sched.outputs with
                        patch := if ch = .patch then false else s.sched.outputs.patch
                        camera := if ch = .camera then false else s.sched.outputs.camera
                        kick := if ch = .kick then false else s.sched.outputs.kick } } })

/-! ## Gate logic and batch counter (chapters 6 and 7) -/

/-- R76, R114 to R119, R135: the gate decision of an undecided blank. ABSENT is SKIPPED. A PRESENT blank first gets UNVERIFIED,
INSPECT_REJECT and HOLD_DIVERT by their rules, and is then DIVERTED, counted REJECT and added to the open batch's reject count, or
PASSED. The gate level, and GATE on an enabled channel, is active for DIVERTED alone. -/
def Obligations.GateDecidesItsBlank : Prop :=
  ∀ (s : State) (b : Blank) (p : Profile),
    let x := s.slot .gate
    let h := p.header
    let settled : DefectSet :=
      { b.defects with
        unverified :=
          b.defects.unverified
            || ([0, 1, 2, 3] : List (Fin 4)).any fun i =>
                h.expected.has i && !b.verdicts.any fun v => v.source == i && !v.late
        inspectReject := b.defects.inspectReject || b.verdicts.any fun v => v.result == .reject
        holdDivert :=
          b.defects.holdDivert
            || (decide (8 ≤ s.batch.queue.length)
              && match s.batch.current.body.order with
                | none => false
                | some o => !(o.slot == b.slot)) }
    let diverted : Bool :=
      settled.splice || settled.holdDivert || settled.inspectReject || settled.meets h.rejects
        || (settled.unverified && h.policy == .reject)
    let level := b.presence == .present && diverted
    let reject := if level then 1 else 0
    s.FiresOnce .gate → x.angle.isSome = true → s.track.find x.serial = some b → s.profiles.contentOf b.slot = some p →
      b.presence ≠ .pending → b.outcome = .pending → b.counted = .no → s.batch.current.body.rejects + reject < 2 ^ 32 →
        (∀ r ∈ s.track.records, r.serial = x.serial → r = b) →
          ∃ t : State, exec .gateDecision s = .next t
            ∧ State.RearmedTo
              { s with
                track :=
                  { s.track with
                    records := s.track.records.map fun r : Blank =>
                      if r.serial = x.serial then
                        if b.presence = .absent then { b with outcome := .skipped }
                        else if diverted then { b with defects := settled, outcome := .diverted, counted := .reject }
                        else { b with defects := settled, outcome := .passed }
                      else r }
                sched :=
                  { s.sched with
                    gateLevel := level
                    outputs := { s.sched.outputs with gate := level && s.config.channels.gateEnable } }
                batch :=
                  { s.batch with
                    current :=
                      { s.batch.current with
                        body := { s.batch.current.body with rejects := s.batch.current.body.rejects + reject } } } }
              t .gate x.cycle

/-- R131 to R134: the count point of a blank that is not PASSED does nothing. For a PASSED blank a pending close is attempted first,
then a close for CHANGEOVER where the open batch carries another slot (`CloseAttemptsCloseOrHold` says what an attempt does). A
blank that still meets another slot is a stray of the held batch; any other is counted good: the batch adopts its slot where it has
none, the first and last serial follow, and at the target a batch that is not held is attempted for TARGET. At last a held batch at
or past its overrun hands BACKLOG, with its HALT notice when the set did not hold it; and the slot is armed for the next cycle. -/
def Obligations.CountPointCountsPassedBlanks : Prop :=
  ∀ (s : State) (b : Blank),
    let x := s.slot .count
    let foreign (u : State) : Bool :=
      match u.batch.current.body.order with
      | none => false
      | some o => !(o.slot == b.slot)
    let first := if s.batch.current.pending = .none then s else attemptClose s.batch.current.pending x.cycle s
    let settled := if foreign first then attemptClose .changeover x.cycle first else first
    let old := settled.batch.current
    let counted (mark : Counted) (body : BatchBody) : State :=
      { settled with
        track :=
          { settled.track with
            records := settled.track.records.map fun r : Blank =>
              if r.serial = x.serial then if r.counted = .no then { r with counted := mark } else r else r }
        batch := { settled.batch with current := { old with body := body } } }
    s.FiresOnce .count → x.angle.isSome = true → s.track.find x.serial = some b →
      ∃ t : State, exec .countPoint s = .next t
        ∧ (b.outcome ≠ .passed → s.RearmedTo t .count x.cycle)
        ∧ (b.outcome = .passed → foreign settled = true →
            (counted .stray
              { old.body with strays := Nat.min (2 ^ 32 - 1) (old.body.strays + 1), mixed := true }).overrunHanded.RearmedTo
              t .count x.cycle)
        ∧ (b.outcome = .passed → foreign settled = false →
            ∀ p : Profile, settled.profiles.contentOf b.slot = some p →
              let order : BatchOrder :=
                match old.body.order with
                | some o => o
                | none => ⟨b.slot, p.header.order, p.header.batchTarget, p.header.overrun⟩
              let span : SerialSpan :=
                match old.body.span with
                | some y => ⟨y.first, x.serial⟩
                | none => ⟨x.serial, x.serial⟩
              let good := Nat.min (2 ^ 32 - 1) (old.body.good + 1)
              let one := counted .good { old.body with good := good, order := some order, span := some span }
              (if order.target ≤ good ∧ old.body.held = false then attemptClose .target x.cycle one
                else one).overrunHanded.RearmedTo t .count x.cycle)

/-- R34, R78, R128, R129: a close attempt at the count point of cycle `c`. With fewer than 8 closed records the open batch joins the
queue with the reason of the attempt, BATCH_CLOSED is posted and a new open batch takes the next number; a RETIRING slot that no
record carries then becomes READY, with PROFILE_RETIRED; and in LIVE the kick is armed for cycle `c`, and fires at once where its
target stands passed. With 8 the batch is held: the first time HELD becomes YES, close pending takes the reason and BACKLOG is
posted, and afterwards nothing changes. -/
def Obligations.CloseAttemptsCloseOrHold : Prop :=
  ∀ (why : ClosePending) (reason : CloseReason) (c : Serial) (s : State),
    let body := s.batch.current.body
    let closed : ClosedBatch := ⟨body, reason⟩
    let batch : Batches := ⟨⟨⟨body.number + 1, none, 0, 0, 0, none, false, false⟩, .none⟩, s.batch.queue ++ [closed]⟩
    let kicked (u : State) : State := if u.run.runState = .live then u.kickedFor c else u
    (why = .command ∧ reason = .command ∨ why = .target ∧ reason = .target ∨ why = .changeover ∧ reason = .changeover) →
      (s.batch.queue.length < 8 →
        ((∀ i : Fin 4, (s.profiles.slot i).state ≠ .retiring) →
          attemptClose why c s = kicked { s with batch := batch, ports := s.portsAfter [.batchClosed closed] })
        ∧ ∀ i : Fin 4, (s.profiles.slot i).state = .retiring → (∀ j : Fin 4, (s.profiles.slot j).state = .retiring → j = i) →
            attemptClose why c s =
              kicked
                (if ∃ b ∈ s.track.records, b.slot = i then
                  { s with batch := batch, ports := s.portsAfter [.batchClosed closed] }
                else
                  { s with
                    batch := batch
                    profiles := s.profiles.setState i .ready
                    ports := s.portsAfter [.batchClosed closed, .profileRetired i (s.profiles.orderOf i)] }))
      ∧ (8 ≤ s.batch.queue.length → body.held = true → attemptClose why c s = s)
      ∧ (∀ o, 8 ≤ s.batch.queue.length → body.held = false → body.order = some o →
          attemptClose why c s =
            post (.backlog body.number o.order why body.good body.strays)
              { s with batch := { s.batch with current := ⟨{ body with held := true }, why⟩ } })

/-! ## Satellite poller (chapter 8) -/

/-- R148, R149: a round starts at the first tick after START, as round 0, and then whenever the round phase reaches 10,000 µs, with
the next number. Its phase runs from 0 and its first due entry is polled, unless a transaction is still on the bus, for which
it waits. At no other moment, and not while polling is STOPPED, does a round start (there the command changes nothing, the
model's choice, notes/assumptions/5.md). -/
def Obligations.RoundsStartOnTheirRhythm : Prop :=
  ∀ s : State,
    let due : Bool :=
      match s.sat.firstRound with
      | some t => decide (t ≤ s.time)
      | none => decide (10000 ≤ s.sat.phase)
    let round := if s.sat.firstRound.isSome then 0 else s.sat.round + 1
    ((s.sat.running && due) = false → exec .roundStart s = .next s)
    ∧ ((s.sat.running && due) = true →
        exec .roundStart s =
          .next
            { s with
              sat :=
                { s.sat with
                  round := round, phase := 0, firstRound := none,
                  transaction := if s.sat.transaction.isSome then s.sat.transaction else s.pollAfter 0 round s.time,
                  pollWaiting := s.sat.transaction.isSome || s.sat.pollWaiting } })

/-- R150, R152, R153, R155, R157: the answer of a transaction. All phases of the read of the entry's address and register stood on the
bus, with the two data bytes and a stop condition. The value and the round enter the entry, its failure counter becomes 0, an
UNKNOWN or OFFLINE entry is judged as NORMAL with its dwell afresh, and as many answers in a row on the opposite side as the dwell
says change the state. That the part holds what stood on the bus is the model's own record (notes/assumptions/28.md). -/
def Obligations.AnswersAreJudgedAgainstTheThreshold : Prop :=
  ∀ (hi lo : Byte) (s : State) (x : Transaction), s.sat.transaction = some x → x.discard = false →
    let c := s.satConfig x.entry
    let e := s.entry x.entry
    let value : Half := BitVec.ofNat 16 (256 * hi.toNat + lo.toNat)
    let beyond : Bool :=
      match c.sense with
      | .below => decide (value.toNat < c.threshold)
      | .above => decide (c.threshold < value.toNat)
    let afresh : Bool := e.state == .unknown || e.state == .offline
    let tripped : Bool := e.state == .tripped
    let opposite : Bool := if tripped then !beyond else beyond
    let dwell := if afresh then 1 else e.dwell + 1
    let turns : Bool := opposite && dwell == c.dwell
    ∃ t : State, exec (.transactionAnswer hi lo) s = .next t
      ∧ s.PollEndsWith t x
        { state := if tripped == turns then .normal else .tripped
          value := some value
          lastGood := some s.sat.round
          dwell := if opposite && !turns then dwell else 0
          failure := 0 }
        (readPhases x.address x.register hi lo ++ [.stop])

/-- R151, R154, R155, R157: a byte that is not acknowledged and the 1,000 µs timeout are alike one no-answer: the failure counter
rises, and at 3 an entry that is not OFFLINE becomes OFFLINE with its dwell counter 0. The bus shows the read up to the byte that
was refused, and a stop condition at once; how far a read had come that timed out, whether its last byte was refused
and whether the lines allowed its stop condition are free values, and a refused byte whose stop condition cannot be made is left to the
timeout (the model's choice, notes/assumptions/28.md). -/
def Obligations.NoAnswersCountTowardOffline : Prop :=
  ∀ (s : State) (x : Transaction), s.sat.transaction = some x → x.discard = false →
    let e := s.entry x.entry
    let failure := Nat.min 255 (e.failure + 1)
    let fails : Bool := failure == 3 && !(e.state == .offline)
    let after : SampleEntry :=
      { e with
        state := if fails then .offline else e.state, dwell := if fails then 0 else e.dwell, failure := failure }
    (∀ byte, ∃ t : State, exec (.noAcknowledge byte) s = .next t
      ∧ s.PollEndsWith t x after (refusedPhases x.address x.register byte))
    ∧ (x.start + 1000 ≤ s.time →
        ∃ (t : State) (bus : List BusItem), exec .transactionTimeout s = .next t ∧ IsTimedOut x.address x.register bus
          ∧ s.PollEndsWith t x after bus)

/-- R149, R160: a transaction with the discard mark ends with its result handed to no entry. A round of the next run that waited for
it then polls its first due entry. Only the bus shows the end of the read (notes/assumptions/28.md). -/
def Obligations.DiscardedTransactionsReachNoEntry : Prop :=
  ∀ (s : State) (x : Transaction), s.sat.transaction = some x → x.discard = true →
    let ended (bus : List BusItem) : State :=
      { s with
        sat :=
          { s.sat with
            transaction := if s.sat.pollWaiting then s.pollAfter 0 s.sat.round s.time else none
            pollWaiting := false
            bus := bus } }
    (∀ hi lo, exec (.transactionAnswer hi lo) s = .next (ended (readPhases x.address x.register hi lo ++ [.stop])))
    ∧ (∀ byte, exec (.noAcknowledge byte) s = .next (ended (refusedPhases x.address x.register byte)))
    ∧ (x.start + 1000 ≤ s.time →
        ∃ (t : State) (bus : List BusItem), exec .transactionTimeout s = .next t ∧ IsTimedOut x.address x.register bus
          ∧ { t with freeCount := s.freeCount } = ended bus)

/-! ## Command ports (chapter 11) -/

/-- R189, R190, R201: whole bytes are shifted in and as many out. A transfer that begins shifts out the pending response, or the NONE
frame where there is none, then zeros, and with its first whole byte no response is pending. Of a transfer that stood open at a
hardware reset nothing is taken. That a second TRANSFER_BEGIN on a port whose transfer is open carries further bytes of the same
transfer is the model's choice (notes/assumptions/14.md). -/
def Obligations.TransfersShiftOutThePendingResponse : Prop :=
  ∀ (p : PortId) (mosi : List Byte) (s : State),
    let old := s.port p
    let frame := pendingFrame old.pending
    (old.transfer = .idle →
        exec (.transferBegin p mosi) s =
          .next
            (s.setPort p
              { old with
                transfer := .shifting mosi, pending := if mosi = [] then old.pending else none, outFrame := frame,
                miso := clockedOut frame mosi.length }))
    ∧ (∀ first, old.transfer = .shifting first →
        exec (.transferBegin p mosi) s =
          .next
            (s.setPort p
              { old with
                transfer := .shifting (first ++ mosi), pending := if first ++ mosi = [] then old.pending else none,
                miso := clockedOut old.outFrame (first ++ mosi).length }))
    ∧ (old.transfer = .ignored → exec (.transferBegin p mosi) s = .next s)

/-- R189 to R192, R201: the end of a transfer leaves its port IDLE with no response pending; subscription, notices, lost count and
attention line are kept, and nothing outside the port changes. What it shifted out is the pending response, or the NONE frame, then
zeros. A malformed frame is answered FRAME, a code outside the index UNKNOWN, both with the code and tag received, and a NOP leaves no
response. The end of a transfer without a whole byte, and whatever the end of one that stood open at a hardware reset carries, only
leaves the port IDLE: a response stays pending, and no command is taken. That an end on an IDLE port is a whole transfer, and how an
end goes with the bytes a TRANSFER_BEGIN has shifted in, is the model's choice (notes/assumptions/14.md). -/
def Obligations.TransfersEndByTheirFrames : Prop :=
  ∀ (p : PortId) (s : State),
    let old := s.port p
    (∀ frame, s.CanEnd p frame →
      ((s.ended p frame).port p).transfer = .idle ∧ ((s.ended p frame).port p).pending = none
        ∧ (∀ q, q ≠ p → (s.ended p frame).port q = s.port q) ∧ { s.ended p frame with ports := s.ports } = s)
    ∧ (∀ frame, old.transfer = .idle → frame ≠ [] →
        s.CanEnd p frame
          ∧ (s.ended p frame).port p =
            { old with
              pending := none, outFrame := pendingFrame old.pending, miso := clockedOut (pendingFrame old.pending) frame.length })
    ∧ (∀ first frame, old.transfer = .shifting first →
        let whole := if first.length ≤ frame.length then frame else first
        (whole ≠ [] → (first <+: frame ∨ frame <+: first) →
            s.CanEnd p frame
              ∧ (s.ended p frame).port p =
                { old with transfer := .idle, pending := none, miso := clockedOut old.outFrame whole.length })
        ∧ (¬first <+: frame → ¬frame <+: first → ¬s.CanEnd p frame))
    ∧ (∀ bytes : List Byte, (s.port p).transferBytes bytes = some bytes →
        let l := (bytes.getD 2 0).toNat
        (bytes.length < 3 ∨ 61 < l ∨ bytes.length < 3 + l →
            exec (.frame p bytes) s =
              .next (respond p ⟨bytes.getD 0 0, bytes.getD 1 0, .frame, .none, []⟩ (s.ended p bytes)))
        ∧ (l ≤ 61 → 3 + l ≤ bytes.length → bytes.getD 0 0 ∉ commandCodes →
            exec (.unknown p bytes) s =
              .next (respond p ⟨bytes.getD 0 0, bytes.getD 1 0, .unknown, .none, []⟩ (s.ended p bytes))))
    ∧ (∀ (tag : Byte) (payload : List Byte), payload.length ≤ 61 → s.CanEnd p (commandFrame 0x00 tag payload) →
        exec (.nop p tag payload) s = .next (s.ended p (commandFrame 0x00 tag payload)))
    ∧ ((s.port p).transfer = .shifting [] →
        exec (.frame p []) s = .next (s.setPort p { s.port p with transfer := .idle }))
    ∧ ∀ i : Instr, (s.port p).transfer = .ignored → i.port = some p → (∀ mosi, i ≠ .transferBegin p mosi) →
        exec i s = .next (s.setPort p { s.port p with transfer := .idle })

/-- R194: a command with a fixed payload length that comes with another length is refused INVALID, with item kind LENGTH and the
length expected, and changes nothing but its own port's response. -/
def Obligations.WrongLengthsAreRefused : Prop :=
  ∀ (command : PortId → Byte → List Byte → Instr) (code : Byte) (n : Nat), (command, code, n) ∈ fixedLengths →
    ∀ (p : PortId) (tag : Byte) (payload : List Byte) (s : State), payload.length ≠ n → payload.length ≤ 61 →
      s.CanEnd p (commandFrame code tag payload) →
        exec (command p tag payload) s =
          .next
            (respond p ⟨code, tag, .refused, .invalid, [1, 0, BitVec.ofNat 8 n]⟩ (s.ended p (commandFrame code tag payload)))

/-- R190, R195: a command on one port never touches another port's transfer, response or subscription; of its notices it only adds
to that port's queue, at the end. -/
def Obligations.CommandsLeaveOtherPortsAlone : Prop :=
  ∀ (i : Instr) (p q : PortId) (s t : State), i.port = some p → q ≠ p → exec i s = .next t →
    (t.port q).transfer = (s.port q).transfer ∧ (t.port q).pending = (s.port q).pending
      ∧ (t.port q).subscription = (s.port q).subscription ∧ (t.port q).outFrame = (s.port q).outFrame
      ∧ (t.port q).miso = (s.port q).miso ∧ (s.port q).notices <+: (t.port q).notices

/-- R15, R21, R26, R27, R35, R53, R54, R87, R102, R103, R138, R145, R158, R159, R175, R186, R200: the read commands complete in every
state, with a response on their own port that echoes code and tag, and change nothing else. STATUS and REGISTER_READ are answered OK
with all their items, laid out big-endian in order, CONFIG_READ with the written mark and the content, SATELLITE_READ with the entry,
and SLOT_SIGNATURE and SLOT_READ from a slot's content, or EMPTY where it has none; a slot, entry or section number outside its range
is refused INVALID with item kind NONE and its field. What IDENTIFY and TRACK_READ answer is said in `TrackReadAndIdentifyAnswer`, and
BATCH_PEEK in `BatchCommandsAnswerFromTheQueue`. The model's choices in the layouts: cycles per minute that do not fit their two bytes
are a free value, the batch's items that may be absent are each optional, what stands where a trigger, a judgement or a window has no
value and in the padding of the knife list, that list's order, and that an unknown section comes before an EMPTY slot
(notes/assumptions/9.md, 13.md, 26.md, 32.md and 15.md). -/
def Obligations.ReadCommandsChangeNothing : Prop :=
  ∀ (p : PortId) (tag : Byte) (s : State),
    let reply (i : Instr) (code : Byte) (payload : List Byte) (result : Result) (reason : Reason) (answer : List Byte) : Prop :=
      exec i s = .next (respond p ⟨code, tag, result, reason, answer⟩ (s.ended p (commandFrame code tag payload)))
    (∀ (command : PortId → Byte → List Byte → Instr) (code : Byte) (payload : List Byte), (command, code) ∈ readCommands →
      payload.length ≤ 61 → s.CanEnd p (commandFrame code tag payload) →
        ∃ (result : Result) (reason : Reason) (answer : List Byte), (result = .ok ∨ result = .refused)
          ∧ reply (command p tag payload) code payload result reason answer)
    ∧ (s.CanEnd p (commandFrame 0x10 tag []) →
        ∃ v, v < 65536 ∧ (s.shaft.cyclesPerMinute < 65536 → v = s.shaft.cyclesPerMinute)
          ∧ reply (.status p tag []) 0x10 [] .ok .none (layOut (s.statusItems v)))
    ∧ (s.CanEnd p (commandFrame 0x38 tag []) →
        reply (.registerRead p tag []) 0x38 [] .ok .none (layOut s.registerItems))
    ∧ ∀ n : Byte,
        (13 ≤ n.toNat → s.CanEnd p (commandFrame 0x19 tag [n]) →
          reply (.configRead p tag [n]) 0x19 [n] .refused .invalid [0, 0, 1])
        ∧ (8 ≤ n.toNat → s.CanEnd p (commandFrame 0x50 tag [n]) →
            reply (.satelliteRead p tag [n]) 0x50 [n] .refused .invalid [0, 0, 1])
        ∧ (4 ≤ n.toNat →
            (s.CanEnd p (commandFrame 0x26 tag [n]) →
              reply (.slotSignature p tag [n]) 0x26 [n] .refused .invalid [0, 0, 1])
            ∧ ∀ k : Byte, s.CanEnd p (commandFrame 0x25 tag [n, k]) →
                reply (.slotRead p tag [n, k]) 0x25 [n, k] .refused .invalid [0, 0, 1])
        ∧ (∀ x : ConfigSection, n.toNat = x.code → s.CanEnd p (commandFrame 0x19 tag [n]) →
          reply (.configRead p tag [n]) 0x19 [n] .ok .none
            ([n, if s.config.written[x.index.val] then 1 else 0] ++ layOut (s.config.sectionItems x)))
        ∧ (∀ k : Fin 8, n.toNat = k.val → s.CanEnd p (commandFrame 0x50 tag [n]) →
            let e := s.entry k
            let c := s.satConfig k
            reply (.satelliteRead p tag [n]) 0x50 [n] .ok .none
              ([n, BitVec.ofNat 8 e.state.code]
                ++ (match e.value with
                  | none => [0, 0, 0]
                  | some v => 1 :: bytes2 v.toNat)
                ++ (match e.lastGood with
                  | none => [0, 0, 0, 0, 0]
                  | some r => 1 :: serialBytes r)
                ++ [BitVec.ofNat 8 e.dwell, BitVec.ofNat 8 e.failure,
                  if e.state = .tripped ∨ e.state = .offline then 1 else 0, BitVec.ofNat 8 c.consequence.code,
                  if c.enable then 1 else 0]
                ++ serialBytes s.sat.round ++ [if s.sat.running then 1 else 0]))
        ∧ ∀ i : Fin 4, n.toNat = i.val →
            let x := s.profiles.slot i
            (s.CanEnd p (commandFrame 0x26 tag [n]) →
              (x.content = none → reply (.slotSignature p tag [n]) 0x26 [n] .refused .empty [])
              ∧ ∀ c signature, x.content = some c → x.signature = some signature →
                  reply (.slotSignature p tag [n]) 0x26 [n] .ok .none
                    (BitVec.ofNat 8 x.state.code :: serialBytes c.header.order ++ bytes2 signature.toNat))
            ∧ (∀ k : Byte, 7 ≤ k.toNat → s.CanEnd p (commandFrame 0x25 tag [n, k]) →
                reply (.slotRead p tag [n, k]) 0x25 [n, k] .refused .invalid [0, 0, 2])
            ∧ ∀ (k : Byte) (part : ProfileSection), k.toNat = part.code → s.CanEnd p (commandFrame 0x25 tag [n, k]) →
                (x.content = none → reply (.slotRead p tag [n, k]) 0x25 [n, k] .refused .empty [])
                ∧ ∀ c, x.content = some c →
                    reply (.slotRead p tag [n, k]) 0x25 [n, k] .ok .none
                      ([BitVec.ofNat 8 x.state.code, k] ++ layOut (presentItems (c.sectionItems part)))

/-- R50, R53, R204: TRACK_READ answers a held serial with its record of 34 bytes, item by item, a serial newer than the high-water
cycle, or any on an empty queue, with UNKNOWN_SERIAL, and every other with GONE. R200: IDENTIFY answers part 448, revision 1, the port
and the two limits. -/
def Obligations.TrackReadAndIdentifyAnswer : Prop :=
  ∀ (p : PortId) (tag : Byte) (s : State),
    (∀ payload : List Byte, payload.length = 4 → s.CanEnd p (commandFrame 0x30 tag payload) →
      let n := u32At payload 0
      let reply (result : Result) (reason : Reason) (answer : List Byte) : Prop :=
        exec (.trackRead p tag payload) s =
          .next (respond p ⟨0x30, tag, result, reason, answer⟩ (s.ended p (commandFrame 0x30 tag payload)))
      (∀ b, s.track.find n = some b → reply .ok .none (layOut b.items))
      ∧ (s.track.records = [] → reply .refused .unknownSerial [])
      ∧ (∀ h, s.track.find n = none → s.track.records ≠ [] → s.track.highWater = some h →
          if 1 ≤ (n - h).toNat ∧ (n - h).toNat ≤ 2 ^ 31 - 1 then reply .refused .unknownSerial []
          else reply .refused .gone []))
    ∧ (s.CanEnd p (commandFrame 0x01 tag []) →
        let number : Byte :=
          match p with
          | .port1 => 1
          | .port2 => 2
          | .port3 => 3
        exec (.identify p tag []) s =
          .next (respond p ⟨0x01, tag, .ok, .none, [0x01, 0xC0, 1, number, 61, 250]⟩ (s.ended p (commandFrame 0x01 tag []))))

/-- R195, R196, R197: a posted notice leaves a port unchanged that does not subscribe to its kind. Any other port queues it at the end where
its lost count is 0 and fewer than 32 records wait, and drops it where 32 do; where the lost count is above 0, a GAP with that count and
the notice join where 30 records or fewer wait, and the notice is dropped otherwise. A notice dropped raises the lost count, which holds
at 65,535; a GAP makes it 0; and ATTN is active once a record has joined. R198, R199: SUBSCRIBE replaces the port's kinds by those the mask names and ignores bits 11 and up. NOTICE_READ removes and
returns the oldest records, as many as n (8 at most) allows and as fit whole in 246 bytes, and at least one where there is one
and n is not 0, each laid out by its kind (R205); the attention line follows the queue, and the lost count is kept. That a batch
record without slot, order or serials, which no run makes, shows 0 there is the model's choice (notes/assumptions/12.md). -/
def Obligations.NoticesAreSubscribedAndRead : Prop :=
  ∀ (p : PortId) (tag : Byte) (payload : List Byte) (s : State),
    (∀ x : Notice,
      let port := s.port p
      let after := (post x s).port p
      let dropped : Port := { port with lost := Nat.min 65535 (port.lost + 1) }
      post x s = { s with ports := s.portsAfter [x] }
        ∧ (∀ xs, s.portsAfter (x :: xs) = (post x s).portsAfter xs)
        ∧ (port.subscribes x = false → after = port)
        ∧ (port.subscribes x = true →
            (port.lost = 0 → port.notices.length < 32 →
                after = { port with notices := port.notices ++ [x], attention := true })
            ∧ (port.lost = 0 → 32 ≤ port.notices.length → after = dropped)
            ∧ (1 ≤ port.lost → port.notices.length ≤ 30 →
                after = { port with notices := port.notices ++ [.gap port.lost, x], attention := true, lost := 0 })
            ∧ (1 ≤ port.lost → 31 ≤ port.notices.length → after = dropped)))
    ∧ (payload.length = 2 → s.CanEnd p (commandFrame 0x02 tag payload) →
      let ended := s.ended p (commandFrame 0x02 tag payload)
      let m := u16At payload 0
      ∃ kinds : NoticeKinds, kinds.mask = m % 2048
        ∧ exec (.subscribe p tag payload) s =
          .next
            (respond p ⟨0x02, tag, .ok, .none, [BitVec.ofNat 8 (m % 2048 / 256), BitVec.ofNat 8 (m % 2048)]⟩
              (ended.setPort p { ended.port p with subscription := kinds })))
    ∧ (payload.length = 1 → s.CanEnd p (commandFrame 0x03 tag payload) →
        let ended := s.ended p (commandFrame 0x03 tag payload)
        let queue := (s.port p).notices
        let n := Nat.min (u8At payload 0) 8
        let records (k : Nat) : List Byte := layOut ((queue.take k).flatMap Notice.items)
        let size (k : Nat) : Nat := (records k).length
        ∃ k, k ≤ n ∧ k ≤ queue.length ∧ size k ≤ 246 ∧ (k < n → k < queue.length → 246 < size (k + 1))
          ∧ (queue ≠ [] → n ≠ 0 → 1 ≤ k)
          ∧ exec (.noticeRead p tag payload) s =
            .next
              (respond p
                ⟨0x03, tag, .ok, .none,
                  byteOf k ++ byteOf (queue.length - k) ++ bytes2 (s.port p).lost ++ records k⟩
                (if k = 0 then ended
                else
                  ended.setPort p
                    { ended.port p with notices := queue.drop k, attention := !(queue.drop k).isEmpty })))

/-! ## Profile store's commands (chapter 2) -/

/-- R22: STAGE_OPEN empties the area for its caller where it is free or the caller holds it, and is refused HELD where another port
does. R25: STAGE_DROP releases the area for its holder and is refused HELD for any other port or while the area is free. -/
def Obligations.StagingAreaHasOneHolder : Prop :=
  ∀ (p : PortId) (tag : Byte) (s : State),
    (s.CanEnd p (commandFrame 0x20 tag []) →
      let ended := s.ended p (commandFrame 0x20 tag [])
      (s.staging.holder = none ∨ s.staging.holder = some p →
          exec (.stageOpen p tag []) s =
            .next
              (respond p ⟨0x20, tag, .ok, .none, []⟩
                (ended.setStaging ⟨some p, none, none, none, Vector.replicate 4 none, false⟩)))
      ∧ (∀ q, q ≠ p → s.staging.holder = some q →
          exec (.stageOpen p tag []) s = .next (respond p ⟨0x20, tag, .refused, .held, []⟩ ended)))
    ∧ (s.CanEnd p (commandFrame 0x23 tag []) →
        let ended := s.ended p (commandFrame 0x23 tag [])
        (s.staging.holder = some p →
            exec (.stageDrop p tag []) s =
              .next
                (respond p ⟨0x23, tag, .ok, .none, []⟩
                  (ended.setStaging ⟨none, none, none, none, Vector.replicate 4 none, false⟩)))
        ∧ (s.staging.holder ≠ some p →
            exec (.stageDrop p tag []) s = .next (respond p ⟨0x23, tag, .refused, .held, []⟩ ended)))

/-- R17 to R20, R23: STAGE_WRITE. A port that is not the holder is refused HELD, and a poisoned area STAGING_FAILED. An unknown section,
a content of another length and a section outside R17, R18 or R19 are refused INVALID, with their item kind, and set the failed
flag; a section inside them is stored. That a HEADER's code outside its list is refused PROFILE_SECTION is the model's choice
(notes/assumptions/27.md). -/
def Obligations.StageWriteChecksItsSection : Prop :=
  ∀ (p : PortId) (tag code : Byte) (content : List Byte) (s : State), content.length ≤ 60 →
    s.CanEnd p (commandFrame 0x21 tag (code :: content)) →
      let ended := s.ended p (commandFrame 0x21 tag (code :: content))
      let area := s.staging
      let reply (result : Result) (reason : Reason) (answer : List Byte) (t : State) : Prop :=
        exec (.stageWrite p tag (code :: content)) s = .next (respond p ⟨0x21, tag, result, reason, answer⟩ t)
      let fails (kind section_ field : Byte) : Prop :=
        reply .refused .invalid [kind, section_, field] (ended.setStaging { area with failed := true })
      let stores (x : Staging) : Prop := reply .ok .none [] (ended.setStaging x)
      let pitch := if s.config.written[0] then s.config.shaft.pitch else 16000
      let at1 (i : Nat) : Nat := (content.getD i 0).toNat
      let at2 (i : Nat) : Nat := 256 * at1 i + at1 (i + 1)
      let fits (e w t : Nat) : Prop := WindowFits pitch e w t
      (area.holder ≠ some p → reply .refused .held [] ended)
      ∧ (area.holder = some p → area.failed = true → reply .refused .stagingFailed [] ended)
      ∧ (area.holder = some p → area.failed = false →
          (7 ≤ code.toNat → fails 0 0 1)
          ∧ (code = 0 ∧ content.length ≠ 13 ∨ code = 1 ∧ content.length ≠ 6 ∨ code = 2 ∧ content.length ≠ 8
              ∨ 3 ≤ code.toNat ∧ code.toNat ≤ 6 ∧ content.length ≠ 1 + 4 * at1 0 → fails 1 0 0)
          ∧ (code = 0 → content.length = 13 →
              let inRange :=
                10 ≤ at2 4 ∧ at2 4 ≤ 50000 ∧ at2 6 ≤ 5000 ∧ at1 8 < 64 ∧ at1 9 ≤ 1 ∧ at1 10 ≤ 1 ∧ at1 11 < 16 ∧ at1 12 ≤ 1
                  ∧ (at1 10 = 0 → at1 11 = 0)
              (¬inRange → fails 2 0 0)
              ∧ (inRange →
                  ∃ h : Header, h.order.toNat = 65536 * at2 0 + at2 2 ∧ h.batchTarget = at2 4 ∧ h.overrun = at2 6
                    ∧ h.rejects.mask = at1 8 ∧ h.policy.code = at1 9 ∧ h.cameraUse = decide (at1 10 = 1)
                    ∧ h.expected.mask = at1 11 ∧ h.haltOnLoss = decide (at1 12 = 1) ∧ stores { area with header := some h }))
          ∧ (code = 1 → content.length = 6 →
              (¬fits (at2 0) (at2 2) (at2 4) → fails 2 1 0)
              ∧ (fits (at2 0) (at2 2) (at2 4) → stores { area with print := some ⟨at2 0, at2 2, at2 4⟩ }))
          ∧ (code = 2 → content.length = 8 →
              let inRange := at2 0 < pitch ∧ fits (at2 2) (at2 4) (at2 6)
              (¬inRange → fails 2 2 0)
              ∧ (inRange → stores { area with patch := some ⟨at2 0, at2 2, at2 4, at2 6⟩ }))
          ∧ ∀ v : Fin 4, code.toNat = 3 + v.val → content.length = 1 + 4 * at1 0 →
              let segments := (List.range (at1 0)).map fun k => (⟨at2 (1 + 4 * k), at2 (3 + 4 * k)⟩ : Segment)
              (¬SegmentsFit pitch segments → fails 2 code 0)
              ∧ (SegmentsFit pitch segments → stores { area with gum := area.gum.set v.val (some segments) }))

/-- R24, R27: STAGE_COMMIT. The refusals in their order, each changing nothing; and a taken commit: every written section becomes the
slot's content whole, the slot is READY and signed over its canonical image (R206), and the area is free. -/
def Obligations.StageCommitFillsASlot : Prop :=
  ∀ (p : PortId) (tag n : Byte) (s : State), s.CanEnd p (commandFrame 0x22 tag [n]) →
    let ended := s.ended p (commandFrame 0x22 tag [n])
    let reply (result : Result) (reason : Reason) (answer : List Byte) (t : State) : Prop :=
      exec (.stageCommit p tag [n]) s = .next (respond p ⟨0x22, tag, result, reason, answer⟩ t)
    (s.staging.holder ≠ some p → reply .refused .held [] ended)
    ∧ (s.staging.holder = some p → s.staging.failed = true → reply .refused .stagingFailed [] ended)
    ∧ (s.staging.holder = some p → s.staging.failed = false →
        (4 ≤ n.toNat → reply .refused .invalid [0, 0, 1] ended)
        ∧ ∀ i : Fin 4, n.toNat = i.val →
          let state := (s.profiles.slot i).state
          (state = .active ∨ state = .staged ∨ state = .retiring → reply .refused .inUse [] ended)
          ∧ (state = .empty ∨ state = .ready →
              (s.staging.header = none → reply .refused .invalid [2, 0, 0] ended)
              ∧ (s.staging.header.isSome = true → s.staging.print = none → reply .refused .invalid [2, 1, 0] ended)
              ∧ ∀ header print, s.staging.header = some header → s.staging.print = some print →
                  let content : Profile := ⟨header, print, s.staging.patch, s.staging.gum⟩
                  let signature := crc16 (layOut content.imageItems)
                  reply .ok .none (n :: bytes2 signature.toNat)
                    { ended with
                      profiles :=
                        { ended.profiles.setSlot i ⟨.ready, some content, some signature⟩ with
                          staging := ⟨none, none, none, none, Vector.replicate 4 none, false⟩ } }))

/-- R21: SLOT_ERASE and CHANGEOVER_ARM are refused INVALID for a slot number above 3, before any other check. R26: SLOT_ERASE makes an
EMPTY or READY slot EMPTY and is refused IN_USE on any other. R20, R29: CHANGEOVER_ARM, in the order of its cases, stages a READY slot
that fits the pitch with its trigger. R32: CHANGEOVER_CANCEL returns the STAGED slot to READY. That a refusal names field 2 for the
trigger and field 3 for the serial is the model's deduction (notes/assumptions/15.md). -/
def Obligations.SlotsAreErasedArmedAndCancelled : Prop :=
  ∀ (p : PortId) (tag : Byte) (i : Fin 4) (s : State),
    let n : Byte := BitVec.ofNat 8 i.val
    (∀ m : Byte, 4 ≤ m.toNat →
      (s.CanEnd p (commandFrame 0x24 tag [m]) →
          exec (.slotErase p tag [m]) s =
            .next (respond p ⟨0x24, tag, .refused, .invalid, [0, 0, 1]⟩ (s.ended p (commandFrame 0x24 tag [m]))))
      ∧ ∀ rest : List Byte, rest.length = 5 → s.CanEnd p (commandFrame 0x28 tag (m :: rest)) →
          exec (.changeoverArm p tag (m :: rest)) s =
            .next (respond p ⟨0x28, tag, .refused, .invalid, [0, 0, 1]⟩ (s.ended p (commandFrame 0x28 tag (m :: rest)))))
    ∧ (s.CanEnd p (commandFrame 0x24 tag [n]) →
      let ended := s.ended p (commandFrame 0x24 tag [n])
      let state := (s.profiles.slot i).state
      (state = .empty ∨ state = .ready →
          exec (.slotErase p tag [n]) s =
            .next
              (respond p ⟨0x24, tag, .ok, .none, []⟩
                { ended with profiles := ended.profiles.setSlot i ⟨.empty, none, none⟩ }))
      ∧ (state = .active ∨ state = .staged ∨ state = .retiring →
          exec (.slotErase p tag [n]) s = .next (respond p ⟨0x24, tag, .refused, .inUse, []⟩ ended)))
    ∧ (∀ (kind : Byte) (serial : List Byte), serial.length = 4 →
        s.CanEnd p (commandFrame 0x28 tag (n :: kind :: serial)) →
          let ended := s.ended p (commandFrame 0x28 tag (n :: kind :: serial))
          let reply (result : Result) (reason : Reason) (answer : List Byte) (t : State) : Prop :=
            exec (.changeoverArm p tag (n :: kind :: serial)) s = .next (respond p ⟨0x28, tag, result, reason, answer⟩ t)
          let k := u32At serial 0
          let newest := s.track.nextSerial - 1
          let trigger : Trigger := if kind = 0 then .next else if kind = 1 then .serial k else .splice false
          let busy := ∃ j : Fin 4, (s.profiles.slot j).state = .staged ∨ (s.profiles.slot j).state = .retiring
          let newer := 1 ≤ (k - newest).toNat ∧ (k - newest).toNat ≤ 2 ^ 31 - 1
          (3 ≤ kind.toNat → reply .refused .invalid [0, 0, 2] ended)
          ∧ (kind.toNat < 3 →
              (s.run.runState = .off → reply .refused .state [] ended)
              ∧ (s.run.runState ≠ .off →
                  (busy → reply .refused .busy [] ended)
                  ∧ (¬busy →
                      ((s.profiles.slot i).state ≠ .ready → reply .refused .inUse [] ended)
                      ∧ ((s.profiles.slot i).state = .ready →
                          (kind = 1 → ¬newer → reply .refused .invalid [0, 0, 3] ended)
                          ∧ (∀ part, (kind = 1 → newer) → s.FirstUnfit i part →
                              reply .refused .invalid [2, BitVec.ofNat 8 part.code, 0] ended)
                          ∧ ((kind = 1 → newer) → s.SlotFits i →
                              reply .ok .none []
                                { ended with
                                  profiles := { ended.profiles.setState i .staged with arm := some ⟨i, trigger⟩ } }))))))
    ∧ (s.CanEnd p (commandFrame 0x29 tag []) →
        let ended := s.ended p (commandFrame 0x29 tag [])
        ((∀ j : Fin 4, (s.profiles.slot j).state ≠ .staged) →
            exec (.changeoverCancel p tag []) s = .next (respond p ⟨0x29, tag, .refused, .empty, []⟩ ended))
        ∧ ((s.profiles.slot i).state = .staged → (∀ j : Fin 4, (s.profiles.slot j).state = .staged → j = i) →
            exec (.changeoverCancel p tag []) s =
              .next
                (respond p ⟨0x29, tag, .ok, .none, [n]⟩
                  { ended with profiles := { ended.profiles.setState i .ready with arm := none } })))

/-! ## Run-state controller's commands (chapters 9 and 10) -/

/-- R20, R28, R148, R163, R166, R187: START, the first case that applies deciding. Refused: a slot number above 3 INVALID, outside OFF
STATE, an unwritten section INVALID naming the first, a failing cross-field check INVALID naming the first, a slot that is not READY
IN_USE, one that does not fit the pitch INVALID naming its first failing section; and nothing changes. Else it is taken: the slot is
ACTIVE, no changeover is armed, polling runs from the next tick, the run state is HOMING with PERMIT by the halt causes, and RUN_STATE
is posted. That State holds the moment of that tick is the model's own way to say it (notes/assumptions/17.md). -/
def Obligations.StartBeginsARun : Prop :=
  ∀ (p : PortId) (tag n : Byte) (s : State), s.SlotsLawful → s.CanEnd p (commandFrame 0x11 tag [n]) →
    let ended := s.ended p (commandFrame 0x11 tag [n])
    let refused (reason : Reason) (answer : List Byte) : Prop :=
      exec (.start p tag [n]) s = .next (respond p ⟨0x11, tag, .refused, reason, answer⟩ ended)
    let checks := s.config.crossChecks
    (4 ≤ n.toNat → refused .invalid [0, 0, 1])
    ∧ ∀ i : Fin 4, n.toNat = i.val →
        (s.run.runState ≠ .off → refused .state [])
        ∧ (∀ k, s.run.runState = .off → s.config.unwritten = some k → refused .invalid [3, BitVec.ofNat 8 k, 0])
        ∧ (s.run.runState = .off → s.config.unwritten = none →
            (∀ k, (∀ j < k, checks[j]? = some true) → checks[k]? = some false →
                refused .invalid [5, BitVec.ofNat 8 (k + 1), 0])
            ∧ ((∀ c ∈ checks, c = true) →
                ((s.profiles.slot i).state ≠ .ready → refused .inUse [])
                ∧ ((s.profiles.slot i).state = .ready →
                    (∀ part, s.FirstUnfit i part → refused .invalid [2, BitVec.ofNat 8 part.code, 0])
                    ∧ (s.SlotFits i →
                        let permit := decide (s.run.causes = CauseSet.empty)
                        exec (.start p tag [n]) s =
                          .next
                            (respond p ⟨0x11, tag, .ok, .none, n :: serialBytes s.track.nextSerial⟩
                              (post
                                (.runState .off .homing .start (some i) s.track.highWater s.track.nextSerial s.run.causes permit)
                                { ended with
                                  profiles := { ended.profiles.setState i .active with arm := none }
                                  sat := { ended.sat with running := true, firstRound := some ((s.time / 1000 + 1) * 1000) }
                                  run := ⟨.homing, s.run.causes, permit⟩ }))))))

/-- R167, R169, R170: STOP adds OPERATOR in every run state, with a HALT notice only when the set did not hold it. R171: CLEAR_HALT is
refused MOVING while the machine moves; at rest it removes the named causes that are in the set, BACKLOG only while the open batch
is not HELD and SATELLITE only while no HOLD is in force, with one HALT notice for all. -/
def Obligations.HaltCausesAreSetAndCleared : Prop :=
  ∀ (p : PortId) (tag : Byte) (s : State), s.PermitFollows →
    (s.CanEnd p (commandFrame 0x12 tag []) →
      let ended := s.ended p (commandFrame 0x12 tag [])
      let causes := { s.run.causes with operator := true }
      exec (.stop p tag []) s =
        .next
          (respond p ⟨0x12, tag, .ok, .none, [BitVec.ofNat 8 causes.mask, 0]⟩
            (if s.run.causes.operator then ended
            else
              post (.halt causes ⟨true, false, false, false, false⟩ CauseSet.empty s.run.runState false)
                { ended with run := ⟨s.run.runState, causes, false⟩ })))
    ∧ ∀ n : Byte, s.CanEnd p (commandFrame 0x13 tag [n]) →
        let ended := s.ended p (commandFrame 0x13 tag [n])
        let old := s.run.causes
        let removed : CauseSet :=
          ⟨n.getLsbD 0 && old.operator, n.getLsbD 1 && old.encoder,
            n.getLsbD 2 && old.backlog && !s.batch.current.body.held, n.getLsbD 3 && old.satellite && !s.inForce .hold,
            n.getLsbD 4 && old.register⟩
        let left : CauseSet :=
          ⟨old.operator && !removed.operator, old.encoder && !removed.encoder, old.backlog && !removed.backlog,
            old.satellite && !removed.satellite, old.register && !removed.register⟩
        let permit := decide (s.run.runState ≠ .off ∧ left = CauseSet.empty)
        (s.shaft.motion = .moving →
            exec (.clearHalt p tag [n]) s = .next (respond p ⟨0x13, tag, .refused, .moving, []⟩ ended))
        ∧ (s.shaft.motion = .atRest →
            exec (.clearHalt p tag [n]) s =
              .next
                (respond p
                  ⟨0x13, tag, .ok, .none,
                    [BitVec.ofNat 8 left.mask, BitVec.ofNat 8 s.run.runState.code, if permit then 1 else 0]⟩
                  (if removed = CauseSet.empty then ended
                  else
                    post (.halt left CauseSet.empty removed s.run.runState permit)
                      { ended with run := ⟨s.run.runState, left, permit⟩ })))

/-- R16, R36, R55, R85, R105, R143, R160, R173: RUN_RESET is refused MOVING while the machine moves. At rest the part goes to OFF:
unhomed, no record, every used slot READY, every output inactive, both channels reset, the open batch closed, lost or discarded,
polling stopped, the halt causes empty; the notices come in R173's order, and contents, numbers and configuration are kept. -/
def Obligations.RunResetReturnsThePartToOff : Prop :=
  ∀ (p : PortId) (tag : Byte) (s : State), s.CanEnd p (commandFrame 0x14 tag []) →
    let ended := s.ended p (commandFrame 0x14 tag [])
    let body := s.batch.current.body
    let fate : Byte := if body.good = 0 then 2 else if s.batch.queue.length < 8 then 0 else 1
    let notices : List Notice :=
      (match s.track.records.head?, s.track.records.getLast? with
        | some a, some b => [.trackFlushed a.serial b.serial]
        | _, _ => [])
      ++ (if body.good = 0 then [] else if s.batch.queue.length < 8 then [.batchClosed ⟨body, .runReset⟩] else [.batchLost body])
      ++ (if s.run.causes = CauseSet.empty then [] else [.halt CauseSet.empty CauseSet.empty s.run.causes .off false])
      ++ [.runState s.run.runState .off .runReset none none s.track.nextSerial CauseSet.empty false]
    (s.shaft.motion = .moving →
        exec (.runReset p tag []) s = .next (respond p ⟨0x14, tag, .refused, .moving, []⟩ ended))
    ∧ (s.shaft.motion = .atRest →
        ∃ t : State,
          exec (.runReset p tag []) s =
            .next
              (respond p
                ⟨0x14, tag, .ok, .none,
                  [BitVec.ofNat 8 s.run.runState.code, BitVec.ofNat 8 s.track.records.length, fate]
                    ++ serialBytes body.number ++ [BitVec.ofNat 8 s.run.causes.mask] ++ serialBytes s.track.nextSerial⟩ t)
          ∧ (∀ q, t.port q = ended.portAfter q notices)
          ∧ t.shaft = { s.shaft with homed := false, position := s.shaft.position % 2 ^ 48 }
          ∧ (∀ i, t.profiles.slot i =
              { s.profiles.slot i with
                state := if (s.profiles.slot i).state = .empty then .empty else .ready })
          ∧ t.profiles.arm = none ∧ t.profiles.staging = s.profiles.staging
          ∧ t.track.records = [] ∧ t.track.nextSerial = s.track.nextSerial ∧ t.track.highWater = none
          ∧ t.track.splicePending = false
          ∧ (∀ pt, (t.slot pt).phase = .unarmed ∧ (t.slot pt).clampNoted = false)
          ∧ (∀ v : Fin 4, t.sched.segments[v.val] = []) ∧ (∀ ch, t.sched.pulse ch = none) ∧ t.sched.gateLevel = false
          ∧ t.sched.outputs = ⟨Vector.replicate 4 false, false, false, false, false⟩
          ∧ (∀ ch, t.channel ch = ⟨.tracking, 0, 0, 0, none, .none⟩) ∧ t.reg.waiting = none ∧ t.reg.knives = []
          ∧ t.batch.queue = s.batch.queue ++ (if fate = 0 then [⟨body, .runReset⟩] else [])
          ∧ t.batch.current =
            ⟨⟨if fate = 0 then body.number + 1 else body.number, none, 0, 0, 0, none, false, false⟩, .none⟩
          ∧ t.sat.running = false ∧ t.sat.round = s.sat.round ∧ (∀ n, t.entry n = ⟨.unknown, none, none, 0, 0⟩)
          ∧ t.sat.transaction = s.sat.transaction.map (fun x => { x with discard := true })
          ∧ t.run = ⟨.off, CauseSet.empty, false⟩ ∧ t.config = s.config ∧ t.time = s.time ∧ t.webOk = s.webOk
          ∧ t.pending = s.pending)

/-- R177 to R184, R186, R207: CONFIG_WRITE. An unknown section is refused INVALID, one outside OFF STATE. In OFF another length is refused
INVALID with item kind LENGTH, and a field outside its range with item kind CONFIG_FIELD, the section and the number of the first such
field; nothing changes. Else the content is taken: each field of the section is the one its bytes hold, so that it reads back byte for
byte, it is marked written, no other section changes, and the answer names it and the first section still unwritten. That an
enumeration code outside its list is refused CONFIG_FIELD is the model's choice (notes/assumptions/27.md). -/
def Obligations.ConfigurationReadsBackAsWritten : Prop :=
  ∀ (p : PortId) (tag code : Byte) (content : List Byte) (s : State),
    let payload : List Byte := code :: content
    content.length ≤ 60 → s.CanEnd p (commandFrame 0x18 tag payload) →
      let ended := s.ended p (commandFrame 0x18 tag payload)
      let reply (result : Result) (reason : Reason) (answer : List Byte) (t : State) : Prop :=
        exec (.configWrite p tag payload) s = .next (respond p ⟨0x18, tag, result, reason, answer⟩ t)
      (13 ≤ code.toNat → reply .refused .invalid [0, 0, 1] ended)
      ∧ ∀ x : ConfigSection, code.toNat = x.code →
          let pitch := if s.config.written[0] then s.config.shaft.pitch else 16000
          let checks := fieldRanges pitch content x
          (s.run.runState ≠ .off → reply .refused .state [] ended)
          ∧ (s.run.runState = .off → content.length ≠ contentLength x → reply .refused .invalid [1, 0, 0] ended)
          ∧ (∀ k, s.run.runState = .off → content.length = contentLength x → (∀ j < k, checks[j]? = some true) →
              checks[k]? = some false → reply .refused .invalid [4, code, BitVec.ofNat 8 (k + 1)] ended)
          ∧ (s.run.runState = .off → content.length = contentLength x → (∀ c ∈ checks, c = true) →
              ∃ config : MachineConfig,
                reply .ok .none
                    (code ::
                      match config.unwritten with
                      | none => [0, 0]
                      | some n => [1, BitVec.ofNat 8 n])
                    { ended with config := config }
                  ∧ config.Holds content x ∧ layOut (config.sectionItems x) = content ∧ config.written[x.index.val] = true
                  ∧ config.KeepsOthers s.config x)

/-! ## Verdicts and the batch counter's commands (chapters 6 and 7) -/

/-- R107 to R110: VERDICT of source i for a serial, by the first case that applies. Only a verdict stored by R108 or R109 changes the
record's list; the answer carries serial, source, the found flag, the gate outcome and the stored mark. -/
def Obligations.VerdictsAreTakenByTheirCase : Prop :=
  ∀ (p : PortId) (tag : Byte) (payload : List Byte) (s : State), payload.length = 7 →
    s.CanEnd p (commandFrame 0x40 tag payload) →
      let ended := s.ended p (commandFrame 0x40 tag payload)
      let n := u32At payload 0
      let source := payload.getD 4 0
      let result := payload.getD 5 0
      let code := payload.getD 6 0
      let reply (r : Result) (reason : Reason) (rest : List Byte) (t : State) : Prop :=
        exec (.verdict p tag payload) s =
          .next (respond p ⟨0x40, tag, r, reason, serialBytes n ++ [source] ++ rest⟩ t)
      (4 ≤ source.toNat ∨ 2 ≤ result.toNat → reply .refused .invalid [0, 0, 0] ended)
      ∧ ∀ i : Fin 4, source.toNat = i.val → result.toNat < 2 →
          let judgement : Judgement := if result = 0 then .pass else .reject
          (s.track.records = [] → reply .refused .unknownSerial [0, 0, 0] ended)
          ∧ (∀ h, s.track.find n = none → s.track.records ≠ [] → s.track.highWater = some h →
              if 1 ≤ (n - h).toNat ∧ (n - h).toNat ≤ 2 ^ 31 - 1 then reply .refused .unknownSerial [0, 0, 0] ended
              else reply .late .gone [0, 0, 0] ended)
          ∧ ∀ (b : Blank) (c : Profile), s.track.find n = some b → (∀ r ∈ s.track.records, r.serial = n → r = b) →
              s.profiles.contentOf b.slot = some c →
                let outcome : Byte := BitVec.ofNat 8 b.outcome.code
                let entry := b.verdicts.find? fun v => v.source == i
                let stored (vs : List VerdictEntry) : State :=
                  { ended with
                    track :=
                      { ended.track with
                        records := ended.track.records.map fun r : Blank => if r.serial = n then { r with verdicts := vs } else r } }
                if b.presence = .absent then reply .refused .absent [1, outcome, 0] ended
                else if c.header.expected.has i = false then reply .refused .notExpected [1, outcome, 0] ended
                else if b.cameraDone = false then reply .refused .early [1, outcome, 0] ended
                else if b.outcome ≠ .pending then
                  match entry with
                  | none => reply .late .decided [1, outcome, 1] (stored (b.verdicts ++ [⟨i, judgement, code, true⟩]))
                  | some _ => reply .late .decided [1, outcome, 0] ended
                else
                  match entry with
                  | none => reply .ok .none [1, outcome, 1] (stored (b.verdicts ++ [⟨i, judgement, code, false⟩]))
                  | some v =>
                    if v.result = .pass ∧ judgement = .reject then
                      reply .ok .none [1, outcome, 1]
                        (stored (b.verdicts.map fun v => if v.source = i then { v with result := .reject, code := code } else v))
                    else reply .refused .duplicate [1, outcome, 0] ended

/-- R130: BATCH_CLOSE is refused EMPTY without a good blank, and else makes close pending COMMAND where it is none. R138, R204:
BATCH_PEEK answers the oldest closed record, its 35 bytes item by item, or EMPTY. R139: BATCH_ACK removes the oldest record when it
names its number; with another number it is refused MISMATCH, with an empty queue EMPTY, and changes nothing. That a closed record
without slot, order or serials, which no run makes, shows 0 there is the model's choice (notes/assumptions/12.md). -/
def Obligations.BatchCommandsAnswerFromTheQueue : Prop :=
  ∀ (p : PortId) (tag : Byte) (s : State),
    (s.CanEnd p (commandFrame 0x48 tag []) →
      let ended := s.ended p (commandFrame 0x48 tag [])
      let open_ := s.batch.current
      let why := if open_.pending = .none then ClosePending.command else open_.pending
      (open_.body.good = 0 →
          exec (.batchClose p tag []) s = .next (respond p ⟨0x48, tag, .refused, .empty, []⟩ ended))
      ∧ (1 ≤ open_.body.good →
          exec (.batchClose p tag []) s =
            .next
              (respond p ⟨0x48, tag, .ok, .none, serialBytes open_.body.number ++ [BitVec.ofNat 8 why.code]⟩
                { ended with batch := { ended.batch with current := { ended.batch.current with pending := why } } })))
    ∧ (s.CanEnd p (commandFrame 0x49 tag []) →
        let ended := s.ended p (commandFrame 0x49 tag [])
        (s.batch.queue = [] → exec (.batchPeek p tag []) s = .next (respond p ⟨0x49, tag, .refused, .empty, []⟩ ended))
        ∧ ∀ c rest, s.batch.queue = c :: rest →
            exec (.batchPeek p tag []) s =
              .next
                (respond p
                  ⟨0x49, tag, .ok, .none,
                    [BitVec.ofNat 8 s.batch.queue.length, BitVec.ofNat 8 c.reason.code] ++ layOut c.body.items⟩ ended))
    ∧ ∀ payload : List Byte, payload.length = 4 → s.CanEnd p (commandFrame 0x4A tag payload) →
        let ended := s.ended p (commandFrame 0x4A tag payload)
        let n := u32At payload 0
        (s.batch.queue = [] → exec (.batchAck p tag payload) s = .next (respond p ⟨0x4A, tag, .refused, .empty, []⟩ ended))
        ∧ ∀ c rest, s.batch.queue = c :: rest →
            (c.body.number ≠ n →
                exec (.batchAck p tag payload) s =
                  .next (respond p ⟨0x4A, tag, .refused, .mismatch, serialBytes c.body.number⟩ ended))
            ∧ (c.body.number = n →
                exec (.batchAck p tag payload) s =
                  .next
                    (respond p ⟨0x4A, tag, .ok, .none, serialBytes n ++ [BitVec.ofNat 8 rest.length]⟩
                      { ended with batch := { ended.batch with queue := rest } }))

/-! ## Frames spell their commands -/

/-- R191, R202, R204: the bytes of every well-formed command's frame, and of every FRAME and UNKNOWN transfer, spell that command. -/
def Obligations.FramesDecodeToTheirCommands : Prop :=
  ∀ (i : Instr) (b : TransferBytes), encodeTransfer i = some b → i.wellFormed = true → decodeTransfer b.port b.bytes = i

/-! ## What every step keeps -/

/-- R4, R8, R162, R168: after every step PERMIT is active exactly when the run state is HOMING or LIVE with no halt cause, and the
homed flag is YES exactly in LIVE. -/
def Obligations.StepsKeepPermitAndHoming : Prop :=
  ∀ s t : State, s.RunLawful → step s = .next t → t.RunLawful

/-- R196, R197, R199: a step only removes notices from the head of a port's queue, oldest first, or only adds notices at its end. After
it each port holds at most 32 notices, a lost count of at most 65,535, and an attention line that is active exactly while it holds
a notice. -/
def Obligations.StepsKeepNoticesInOrder : Prop :=
  ∀ s t : State, s.NoticesInOrder → step s = .next t →
    t.NoticesInOrder ∧ ∀ p : PortId, KeepsOrder (s.port p).notices (t.port p).notices

/-- R137: after every step the batch queue holds at most 8 closed records with consecutive, increasing numbers, and the open batch's
number is one more than the newest. -/
def Obligations.StepsKeepBatchNumbersConsecutive : Prop :=
  ∀ s t : State, s.BatchesRun → step s = .next t → t.BatchesRun

/-- R82 to R85: after every step each GUM output shows its open segments, which are open only in LIVE and MOVING; PATCH, CAMERA and
KICK show their pulses and GATE the gate level; and in OFF all eight outputs are inactive. -/
def Obligations.StepsKeepOutputsLawful : Prop :=
  ∀ s t : State, s.OutputsLawful → step s = .next t → t.OutputsLawful

/-- R21, R27, R29: after every step at most one slot each is ACTIVE, STAGED and RETIRING, never a STAGED beside a RETIRING one; every
slot that is not EMPTY carries a content and its signature; the arm holds the STAGED slot; in OFF no slot is in use, and outside
OFF one is ACTIVE. -/
def Obligations.StepsKeepSlotsLawful : Prop :=
  ∀ s t : State, s.RunLawful → s.SlotsLawful → step s = .next t → t.SlotsLawful

/-- R41, R42: after every step the records have consecutive serials, oldest first, up to the one before the next serial, never more
than d_del + 1 of them, and none in OFF; the high-water cycle is the newest one's serial. -/
def Obligations.StepsKeepRecordsConsecutive : Prop :=
  ∀ s t : State, s.RunLawful → s.TrackLawful → step s = .next t → t.TrackLawful

/-- R39, R40, R117, R119: a step only advances a record that it keeps, and after it every blank is counted REJECT exactly when it is
DIVERTED, GOOD or STRAY only when PASSED, DIVERTED if it holds HOLD_DIVERT, with at most one verdict per source. -/
def Obligations.StepsOnlyAdvanceRecords : Prop :=
  ∀ s t : State, s.RunLawful → s.TrackLawful → s.RecordsLawful → step s = .next t →
    t.RecordsLawful ∧ ∀ b ∈ s.track.records, ∀ later ∈ t.track.records, later.serial = b.serial → b.Advances later

/-- R97, R105: after every step the trim and the patch correction each stay within plus or minus their configured maximum, and in OFF
both channels stand as a reset leaves them. -/
def Obligations.StepsKeepCorrectionsClamped : Prop :=
  ∀ s t : State, s.ValuesClamped → step s = .next t → t.ValuesClamped
end

