-- ==== Sys2Proof/Laws/State.lean ====
section
/-! SUPPORT. One lemma for each field that a named update of the state leaves alone, and what it writes. -/

namespace Sys2Proof.Machine

/-! ### setPort -/

@[simp] theorem setPort_shaft (s : State) (p : PortId) (v : Port) : (s.setPort p v).shaft = s.shaft := rfl
@[simp] theorem setPort_profiles (s : State) (p : PortId) (v : Port) : (s.setPort p v).profiles = s.profiles := rfl
@[simp] theorem setPort_track (s : State) (p : PortId) (v : Port) : (s.setPort p v).track = s.track := rfl
@[simp] theorem setPort_sched (s : State) (p : PortId) (v : Port) : (s.setPort p v).sched = s.sched := rfl
@[simp] theorem setPort_reg (s : State) (p : PortId) (v : Port) : (s.setPort p v).reg = s.reg := rfl
@[simp] theorem setPort_batch (s : State) (p : PortId) (v : Port) : (s.setPort p v).batch = s.batch := rfl
@[simp] theorem setPort_sat (s : State) (p : PortId) (v : Port) : (s.setPort p v).sat = s.sat := rfl
@[simp] theorem setPort_run (s : State) (p : PortId) (v : Port) : (s.setPort p v).run = s.run := rfl
@[simp] theorem setPort_config (s : State) (p : PortId) (v : Port) : (s.setPort p v).config = s.config := rfl
@[simp] theorem setPort_webOk (s : State) (p : PortId) (v : Port) : (s.setPort p v).webOk = s.webOk := rfl
@[simp] theorem setPort_time (s : State) (p : PortId) (v : Port) : (s.setPort p v).time = s.time := rfl
@[simp] theorem setPort_freeCount (s : State) (p : PortId) (v : Port) : (s.setPort p v).freeCount = s.freeCount := rfl
@[simp] theorem setPort_pending (s : State) (p : PortId) (v : Port) : (s.setPort p v).pending = s.pending := rfl

/-! ### setRun -/

@[simp] theorem setRun_shaft (s : State) (r : RunState) (c : CauseSet) : (s.setRun r c).shaft = s.shaft := rfl
@[simp] theorem setRun_profiles (s : State) (r : RunState) (c : CauseSet) : (s.setRun r c).profiles = s.profiles := rfl
@[simp] theorem setRun_track (s : State) (r : RunState) (c : CauseSet) : (s.setRun r c).track = s.track := rfl
@[simp] theorem setRun_sched (s : State) (r : RunState) (c : CauseSet) : (s.setRun r c).sched = s.sched := rfl
@[simp] theorem setRun_reg (s : State) (r : RunState) (c : CauseSet) : (s.setRun r c).reg = s.reg := rfl
@[simp] theorem setRun_batch (s : State) (r : RunState) (c : CauseSet) : (s.setRun r c).batch = s.batch := rfl
@[simp] theorem setRun_sat (s : State) (r : RunState) (c : CauseSet) : (s.setRun r c).sat = s.sat := rfl
@[simp] theorem setRun_config (s : State) (r : RunState) (c : CauseSet) : (s.setRun r c).config = s.config := rfl
@[simp] theorem setRun_ports (s : State) (r : RunState) (c : CauseSet) : (s.setRun r c).ports = s.ports := rfl
@[simp] theorem setRun_webOk (s : State) (r : RunState) (c : CauseSet) : (s.setRun r c).webOk = s.webOk := rfl
@[simp] theorem setRun_time (s : State) (r : RunState) (c : CauseSet) : (s.setRun r c).time = s.time := rfl
@[simp] theorem setRun_freeCount (s : State) (r : RunState) (c : CauseSet) : (s.setRun r c).freeCount = s.freeCount := rfl
@[simp] theorem setRun_pending (s : State) (r : RunState) (c : CauseSet) : (s.setRun r c).pending = s.pending := rfl

/-! ### post -/

@[simp] theorem post_shaft (n : Notice) (s : State) : (post n s).shaft = s.shaft := rfl
@[simp] theorem post_profiles (n : Notice) (s : State) : (post n s).profiles = s.profiles := rfl
@[simp] theorem post_track (n : Notice) (s : State) : (post n s).track = s.track := rfl
@[simp] theorem post_sched (n : Notice) (s : State) : (post n s).sched = s.sched := rfl
@[simp] theorem post_reg (n : Notice) (s : State) : (post n s).reg = s.reg := rfl
@[simp] theorem post_batch (n : Notice) (s : State) : (post n s).batch = s.batch := rfl
@[simp] theorem post_sat (n : Notice) (s : State) : (post n s).sat = s.sat := rfl
@[simp] theorem post_run (n : Notice) (s : State) : (post n s).run = s.run := rfl
@[simp] theorem post_config (n : Notice) (s : State) : (post n s).config = s.config := rfl
@[simp] theorem post_webOk (n : Notice) (s : State) : (post n s).webOk = s.webOk := rfl
@[simp] theorem post_time (n : Notice) (s : State) : (post n s).time = s.time := rfl
@[simp] theorem post_freeCount (n : Notice) (s : State) : (post n s).freeCount = s.freeCount := rfl
@[simp] theorem post_pending (n : Notice) (s : State) : (post n s).pending = s.pending := rfl

/-! ### postHalt -/

@[simp] theorem postHalt_shaft (c : CauseSet) (s : State) : (postHalt c s).shaft = s.shaft := rfl
@[simp] theorem postHalt_profiles (c : CauseSet) (s : State) : (postHalt c s).profiles = s.profiles := rfl
@[simp] theorem postHalt_track (c : CauseSet) (s : State) : (postHalt c s).track = s.track := rfl
@[simp] theorem postHalt_sched (c : CauseSet) (s : State) : (postHalt c s).sched = s.sched := rfl
@[simp] theorem postHalt_reg (c : CauseSet) (s : State) : (postHalt c s).reg = s.reg := rfl
@[simp] theorem postHalt_batch (c : CauseSet) (s : State) : (postHalt c s).batch = s.batch := rfl
@[simp] theorem postHalt_sat (c : CauseSet) (s : State) : (postHalt c s).sat = s.sat := rfl
@[simp] theorem postHalt_run (c : CauseSet) (s : State) : (postHalt c s).run = s.run := rfl
@[simp] theorem postHalt_config (c : CauseSet) (s : State) : (postHalt c s).config = s.config := rfl
@[simp] theorem postHalt_webOk (c : CauseSet) (s : State) : (postHalt c s).webOk = s.webOk := rfl
@[simp] theorem postHalt_time (c : CauseSet) (s : State) : (postHalt c s).time = s.time := rfl
@[simp] theorem postHalt_freeCount (c : CauseSet) (s : State) : (postHalt c s).freeCount = s.freeCount := rfl
@[simp] theorem postHalt_pending (c : CauseSet) (s : State) : (postHalt c s).pending = s.pending := rfl

/-! ### postRunState -/

@[simp] theorem postRunState_shaft (r : RunState) (c : RunCause) (s : State) : (postRunState r c s).shaft = s.shaft := rfl
@[simp] theorem postRunState_profiles (r : RunState) (c : RunCause) (s : State) : (postRunState r c s).profiles = s.profiles := rfl
@[simp] theorem postRunState_track (r : RunState) (c : RunCause) (s : State) : (postRunState r c s).track = s.track := rfl
@[simp] theorem postRunState_sched (r : RunState) (c : RunCause) (s : State) : (postRunState r c s).sched = s.sched := rfl
@[simp] theorem postRunState_reg (r : RunState) (c : RunCause) (s : State) : (postRunState r c s).reg = s.reg := rfl
@[simp] theorem postRunState_batch (r : RunState) (c : RunCause) (s : State) : (postRunState r c s).batch = s.batch := rfl
@[simp] theorem postRunState_sat (r : RunState) (c : RunCause) (s : State) : (postRunState r c s).sat = s.sat := rfl
@[simp] theorem postRunState_run (r : RunState) (c : RunCause) (s : State) : (postRunState r c s).run = s.run := rfl
@[simp] theorem postRunState_config (r : RunState) (c : RunCause) (s : State) : (postRunState r c s).config = s.config := rfl
@[simp] theorem postRunState_webOk (r : RunState) (c : RunCause) (s : State) : (postRunState r c s).webOk = s.webOk := rfl
@[simp] theorem postRunState_time (r : RunState) (c : RunCause) (s : State) : (postRunState r c s).time = s.time := rfl
@[simp] theorem postRunState_freeCount (r : RunState) (c : RunCause) (s : State) : (postRunState r c s).freeCount = s.freeCount := rfl
@[simp] theorem postRunState_pending (r : RunState) (c : RunCause) (s : State) : (postRunState r c s).pending = s.pending := rfl

/-! ### postRegister -/

@[simp] theorem postRegister_shaft (ch : RegChannel) (n : Serial) (s : State) : (postRegister ch n s).shaft = s.shaft := rfl
@[simp] theorem postRegister_profiles (ch : RegChannel) (n : Serial) (s : State) : (postRegister ch n s).profiles = s.profiles := rfl
@[simp] theorem postRegister_track (ch : RegChannel) (n : Serial) (s : State) : (postRegister ch n s).track = s.track := rfl
@[simp] theorem postRegister_sched (ch : RegChannel) (n : Serial) (s : State) : (postRegister ch n s).sched = s.sched := rfl
@[simp] theorem postRegister_reg (ch : RegChannel) (n : Serial) (s : State) : (postRegister ch n s).reg = s.reg := rfl
@[simp] theorem postRegister_batch (ch : RegChannel) (n : Serial) (s : State) : (postRegister ch n s).batch = s.batch := rfl
@[simp] theorem postRegister_sat (ch : RegChannel) (n : Serial) (s : State) : (postRegister ch n s).sat = s.sat := rfl
@[simp] theorem postRegister_run (ch : RegChannel) (n : Serial) (s : State) : (postRegister ch n s).run = s.run := rfl
@[simp] theorem postRegister_config (ch : RegChannel) (n : Serial) (s : State) : (postRegister ch n s).config = s.config := rfl
@[simp] theorem postRegister_webOk (ch : RegChannel) (n : Serial) (s : State) : (postRegister ch n s).webOk = s.webOk := rfl
@[simp] theorem postRegister_time (ch : RegChannel) (n : Serial) (s : State) : (postRegister ch n s).time = s.time := rfl
@[simp] theorem postRegister_freeCount (ch : RegChannel) (n : Serial) (s : State) : (postRegister ch n s).freeCount = s.freeCount := rfl
@[simp] theorem postRegister_pending (ch : RegChannel) (n : Serial) (s : State) : (postRegister ch n s).pending = s.pending := rfl

/-! ### updateBlank -/

@[simp] theorem updateBlank_shaft (s : State) (n : Serial) (f : Blank → Blank) : (s.updateBlank n f).shaft = s.shaft := rfl
@[simp] theorem updateBlank_profiles (s : State) (n : Serial) (f : Blank → Blank) : (s.updateBlank n f).profiles = s.profiles := rfl
@[simp] theorem updateBlank_sched (s : State) (n : Serial) (f : Blank → Blank) : (s.updateBlank n f).sched = s.sched := rfl
@[simp] theorem updateBlank_reg (s : State) (n : Serial) (f : Blank → Blank) : (s.updateBlank n f).reg = s.reg := rfl
@[simp] theorem updateBlank_batch (s : State) (n : Serial) (f : Blank → Blank) : (s.updateBlank n f).batch = s.batch := rfl
@[simp] theorem updateBlank_sat (s : State) (n : Serial) (f : Blank → Blank) : (s.updateBlank n f).sat = s.sat := rfl
@[simp] theorem updateBlank_run (s : State) (n : Serial) (f : Blank → Blank) : (s.updateBlank n f).run = s.run := rfl
@[simp] theorem updateBlank_config (s : State) (n : Serial) (f : Blank → Blank) : (s.updateBlank n f).config = s.config := rfl
@[simp] theorem updateBlank_ports (s : State) (n : Serial) (f : Blank → Blank) : (s.updateBlank n f).ports = s.ports := rfl
@[simp] theorem updateBlank_webOk (s : State) (n : Serial) (f : Blank → Blank) : (s.updateBlank n f).webOk = s.webOk := rfl
@[simp] theorem updateBlank_time (s : State) (n : Serial) (f : Blank → Blank) : (s.updateBlank n f).time = s.time := rfl
@[simp] theorem updateBlank_freeCount (s : State) (n : Serial) (f : Blank → Blank) : (s.updateBlank n f).freeCount = s.freeCount := rfl
@[simp] theorem updateBlank_pending (s : State) (n : Serial) (f : Blank → Blank) : (s.updateBlank n f).pending = s.pending := rfl

/-! ### addDefect -/

@[simp] theorem addDefect_shaft (n : Serial) (d : Defect) (s : State) : (addDefect n d s).shaft = s.shaft := rfl
@[simp] theorem addDefect_profiles (n : Serial) (d : Defect) (s : State) : (addDefect n d s).profiles = s.profiles := rfl
@[simp] theorem addDefect_sched (n : Serial) (d : Defect) (s : State) : (addDefect n d s).sched = s.sched := rfl
@[simp] theorem addDefect_reg (n : Serial) (d : Defect) (s : State) : (addDefect n d s).reg = s.reg := rfl
@[simp] theorem addDefect_batch (n : Serial) (d : Defect) (s : State) : (addDefect n d s).batch = s.batch := rfl
@[simp] theorem addDefect_sat (n : Serial) (d : Defect) (s : State) : (addDefect n d s).sat = s.sat := rfl
@[simp] theorem addDefect_run (n : Serial) (d : Defect) (s : State) : (addDefect n d s).run = s.run := rfl
@[simp] theorem addDefect_config (n : Serial) (d : Defect) (s : State) : (addDefect n d s).config = s.config := rfl
@[simp] theorem addDefect_ports (n : Serial) (d : Defect) (s : State) : (addDefect n d s).ports = s.ports := rfl
@[simp] theorem addDefect_webOk (n : Serial) (d : Defect) (s : State) : (addDefect n d s).webOk = s.webOk := rfl
@[simp] theorem addDefect_time (n : Serial) (d : Defect) (s : State) : (addDefect n d s).time = s.time := rfl
@[simp] theorem addDefect_freeCount (n : Serial) (d : Defect) (s : State) : (addDefect n d s).freeCount = s.freeCount := rfl
@[simp] theorem addDefect_pending (n : Serial) (d : Defect) (s : State) : (addDefect n d s).pending = s.pending := rfl

/-! ### setSlot -/

@[simp] theorem setSlot_shaft (s : State) (pt : TimedPoint) (a : ActionSlot) : (s.setSlot pt a).shaft = s.shaft := rfl
@[simp] theorem setSlot_profiles (s : State) (pt : TimedPoint) (a : ActionSlot) : (s.setSlot pt a).profiles = s.profiles := rfl
@[simp] theorem setSlot_track (s : State) (pt : TimedPoint) (a : ActionSlot) : (s.setSlot pt a).track = s.track := rfl
@[simp] theorem setSlot_reg (s : State) (pt : TimedPoint) (a : ActionSlot) : (s.setSlot pt a).reg = s.reg := rfl
@[simp] theorem setSlot_batch (s : State) (pt : TimedPoint) (a : ActionSlot) : (s.setSlot pt a).batch = s.batch := rfl
@[simp] theorem setSlot_sat (s : State) (pt : TimedPoint) (a : ActionSlot) : (s.setSlot pt a).sat = s.sat := rfl
@[simp] theorem setSlot_run (s : State) (pt : TimedPoint) (a : ActionSlot) : (s.setSlot pt a).run = s.run := rfl
@[simp] theorem setSlot_config (s : State) (pt : TimedPoint) (a : ActionSlot) : (s.setSlot pt a).config = s.config := rfl
@[simp] theorem setSlot_ports (s : State) (pt : TimedPoint) (a : ActionSlot) : (s.setSlot pt a).ports = s.ports := rfl
@[simp] theorem setSlot_webOk (s : State) (pt : TimedPoint) (a : ActionSlot) : (s.setSlot pt a).webOk = s.webOk := rfl
@[simp] theorem setSlot_time (s : State) (pt : TimedPoint) (a : ActionSlot) : (s.setSlot pt a).time = s.time := rfl
@[simp] theorem setSlot_freeCount (s : State) (pt : TimedPoint) (a : ActionSlot) : (s.setSlot pt a).freeCount = s.freeCount := rfl
@[simp] theorem setSlot_pending (s : State) (pt : TimedPoint) (a : ActionSlot) : (s.setSlot pt a).pending = s.pending := rfl

/-! ### setChannel -/

@[simp] theorem setChannel_shaft (s : State) (ch : RegChannel) (x : Channel) : (s.setChannel ch x).shaft = s.shaft := rfl
@[simp] theorem setChannel_profiles (s : State) (ch : RegChannel) (x : Channel) : (s.setChannel ch x).profiles = s.profiles := rfl
@[simp] theorem setChannel_track (s : State) (ch : RegChannel) (x : Channel) : (s.setChannel ch x).track = s.track := rfl
@[simp] theorem setChannel_sched (s : State) (ch : RegChannel) (x : Channel) : (s.setChannel ch x).sched = s.sched := rfl
@[simp] theorem setChannel_batch (s : State) (ch : RegChannel) (x : Channel) : (s.setChannel ch x).batch = s.batch := rfl
@[simp] theorem setChannel_sat (s : State) (ch : RegChannel) (x : Channel) : (s.setChannel ch x).sat = s.sat := rfl
@[simp] theorem setChannel_run (s : State) (ch : RegChannel) (x : Channel) : (s.setChannel ch x).run = s.run := rfl
@[simp] theorem setChannel_config (s : State) (ch : RegChannel) (x : Channel) : (s.setChannel ch x).config = s.config := rfl
@[simp] theorem setChannel_ports (s : State) (ch : RegChannel) (x : Channel) : (s.setChannel ch x).ports = s.ports := rfl
@[simp] theorem setChannel_webOk (s : State) (ch : RegChannel) (x : Channel) : (s.setChannel ch x).webOk = s.webOk := rfl
@[simp] theorem setChannel_time (s : State) (ch : RegChannel) (x : Channel) : (s.setChannel ch x).time = s.time := rfl
@[simp] theorem setChannel_freeCount (s : State) (ch : RegChannel) (x : Channel) : (s.setChannel ch x).freeCount = s.freeCount := rfl
@[simp] theorem setChannel_pending (s : State) (ch : RegChannel) (x : Channel) : (s.setChannel ch x).pending = s.pending := rfl

/-! ### handKnife -/

@[simp] theorem handKnife_shaft (n : Serial) (o : KnifeOutcome) (s : State) : (handKnife n o s).shaft = s.shaft := rfl
@[simp] theorem handKnife_profiles (n : Serial) (o : KnifeOutcome) (s : State) : (handKnife n o s).profiles = s.profiles := rfl
@[simp] theorem handKnife_track (n : Serial) (o : KnifeOutcome) (s : State) : (handKnife n o s).track = s.track := rfl
@[simp] theorem handKnife_sched (n : Serial) (o : KnifeOutcome) (s : State) : (handKnife n o s).sched = s.sched := rfl
@[simp] theorem handKnife_batch (n : Serial) (o : KnifeOutcome) (s : State) : (handKnife n o s).batch = s.batch := rfl
@[simp] theorem handKnife_sat (n : Serial) (o : KnifeOutcome) (s : State) : (handKnife n o s).sat = s.sat := rfl
@[simp] theorem handKnife_run (n : Serial) (o : KnifeOutcome) (s : State) : (handKnife n o s).run = s.run := rfl
@[simp] theorem handKnife_config (n : Serial) (o : KnifeOutcome) (s : State) : (handKnife n o s).config = s.config := rfl
@[simp] theorem handKnife_ports (n : Serial) (o : KnifeOutcome) (s : State) : (handKnife n o s).ports = s.ports := rfl
@[simp] theorem handKnife_webOk (n : Serial) (o : KnifeOutcome) (s : State) : (handKnife n o s).webOk = s.webOk := rfl
@[simp] theorem handKnife_time (n : Serial) (o : KnifeOutcome) (s : State) : (handKnife n o s).time = s.time := rfl
@[simp] theorem handKnife_freeCount (n : Serial) (o : KnifeOutcome) (s : State) : (handKnife n o s).freeCount = s.freeCount := rfl
@[simp] theorem handKnife_pending (n : Serial) (o : KnifeOutcome) (s : State) : (handKnife n o s).pending = s.pending := rfl

/-! ### dropKnife -/

@[simp] theorem dropKnife_shaft (n : Serial) (s : State) : (dropKnife n s).shaft = s.shaft := rfl
@[simp] theorem dropKnife_profiles (n : Serial) (s : State) : (dropKnife n s).profiles = s.profiles := rfl
@[simp] theorem dropKnife_track (n : Serial) (s : State) : (dropKnife n s).track = s.track := rfl
@[simp] theorem dropKnife_sched (n : Serial) (s : State) : (dropKnife n s).sched = s.sched := rfl
@[simp] theorem dropKnife_batch (n : Serial) (s : State) : (dropKnife n s).batch = s.batch := rfl
@[simp] theorem dropKnife_sat (n : Serial) (s : State) : (dropKnife n s).sat = s.sat := rfl
@[simp] theorem dropKnife_run (n : Serial) (s : State) : (dropKnife n s).run = s.run := rfl
@[simp] theorem dropKnife_config (n : Serial) (s : State) : (dropKnife n s).config = s.config := rfl
@[simp] theorem dropKnife_ports (n : Serial) (s : State) : (dropKnife n s).ports = s.ports := rfl
@[simp] theorem dropKnife_webOk (n : Serial) (s : State) : (dropKnife n s).webOk = s.webOk := rfl
@[simp] theorem dropKnife_time (n : Serial) (s : State) : (dropKnife n s).time = s.time := rfl
@[simp] theorem dropKnife_freeCount (n : Serial) (s : State) : (dropKnife n s).freeCount = s.freeCount := rfl
@[simp] theorem dropKnife_pending (n : Serial) (s : State) : (dropKnife n s).pending = s.pending := rfl

/-! ### setOpenBatch -/

@[simp] theorem setOpenBatch_shaft (s : State) (b : OpenBatch) : (s.setOpenBatch b).shaft = s.shaft := rfl
@[simp] theorem setOpenBatch_profiles (s : State) (b : OpenBatch) : (s.setOpenBatch b).profiles = s.profiles := rfl
@[simp] theorem setOpenBatch_track (s : State) (b : OpenBatch) : (s.setOpenBatch b).track = s.track := rfl
@[simp] theorem setOpenBatch_sched (s : State) (b : OpenBatch) : (s.setOpenBatch b).sched = s.sched := rfl
@[simp] theorem setOpenBatch_reg (s : State) (b : OpenBatch) : (s.setOpenBatch b).reg = s.reg := rfl
@[simp] theorem setOpenBatch_sat (s : State) (b : OpenBatch) : (s.setOpenBatch b).sat = s.sat := rfl
@[simp] theorem setOpenBatch_run (s : State) (b : OpenBatch) : (s.setOpenBatch b).run = s.run := rfl
@[simp] theorem setOpenBatch_config (s : State) (b : OpenBatch) : (s.setOpenBatch b).config = s.config := rfl
@[simp] theorem setOpenBatch_ports (s : State) (b : OpenBatch) : (s.setOpenBatch b).ports = s.ports := rfl
@[simp] theorem setOpenBatch_webOk (s : State) (b : OpenBatch) : (s.setOpenBatch b).webOk = s.webOk := rfl
@[simp] theorem setOpenBatch_time (s : State) (b : OpenBatch) : (s.setOpenBatch b).time = s.time := rfl
@[simp] theorem setOpenBatch_freeCount (s : State) (b : OpenBatch) : (s.setOpenBatch b).freeCount = s.freeCount := rfl
@[simp] theorem setOpenBatch_pending (s : State) (b : OpenBatch) : (s.setOpenBatch b).pending = s.pending := rfl

/-! ### countReject -/

@[simp] theorem countReject_shaft (s : State) : (countReject s).shaft = s.shaft := rfl
@[simp] theorem countReject_profiles (s : State) : (countReject s).profiles = s.profiles := rfl
@[simp] theorem countReject_track (s : State) : (countReject s).track = s.track := rfl
@[simp] theorem countReject_sched (s : State) : (countReject s).sched = s.sched := rfl
@[simp] theorem countReject_reg (s : State) : (countReject s).reg = s.reg := rfl
@[simp] theorem countReject_sat (s : State) : (countReject s).sat = s.sat := rfl
@[simp] theorem countReject_run (s : State) : (countReject s).run = s.run := rfl
@[simp] theorem countReject_config (s : State) : (countReject s).config = s.config := rfl
@[simp] theorem countReject_ports (s : State) : (countReject s).ports = s.ports := rfl
@[simp] theorem countReject_webOk (s : State) : (countReject s).webOk = s.webOk := rfl
@[simp] theorem countReject_time (s : State) : (countReject s).time = s.time := rfl
@[simp] theorem countReject_freeCount (s : State) : (countReject s).freeCount = s.freeCount := rfl
@[simp] theorem countReject_pending (s : State) : (countReject s).pending = s.pending := rfl

/-! ### setEntry -/

@[simp] theorem setEntry_shaft (s : State) (n : Fin 8) (e : SampleEntry) : (s.setEntry n e).shaft = s.shaft := rfl
@[simp] theorem setEntry_profiles (s : State) (n : Fin 8) (e : SampleEntry) : (s.setEntry n e).profiles = s.profiles := rfl
@[simp] theorem setEntry_track (s : State) (n : Fin 8) (e : SampleEntry) : (s.setEntry n e).track = s.track := rfl
@[simp] theorem setEntry_sched (s : State) (n : Fin 8) (e : SampleEntry) : (s.setEntry n e).sched = s.sched := rfl
@[simp] theorem setEntry_reg (s : State) (n : Fin 8) (e : SampleEntry) : (s.setEntry n e).reg = s.reg := rfl
@[simp] theorem setEntry_batch (s : State) (n : Fin 8) (e : SampleEntry) : (s.setEntry n e).batch = s.batch := rfl
@[simp] theorem setEntry_run (s : State) (n : Fin 8) (e : SampleEntry) : (s.setEntry n e).run = s.run := rfl
@[simp] theorem setEntry_config (s : State) (n : Fin 8) (e : SampleEntry) : (s.setEntry n e).config = s.config := rfl
@[simp] theorem setEntry_ports (s : State) (n : Fin 8) (e : SampleEntry) : (s.setEntry n e).ports = s.ports := rfl
@[simp] theorem setEntry_webOk (s : State) (n : Fin 8) (e : SampleEntry) : (s.setEntry n e).webOk = s.webOk := rfl
@[simp] theorem setEntry_time (s : State) (n : Fin 8) (e : SampleEntry) : (s.setEntry n e).time = s.time := rfl
@[simp] theorem setEntry_freeCount (s : State) (n : Fin 8) (e : SampleEntry) : (s.setEntry n e).freeCount = s.freeCount := rfl
@[simp] theorem setEntry_pending (s : State) (n : Fin 8) (e : SampleEntry) : (s.setEntry n e).pending = s.pending := rfl

/-! ### setStaging -/

@[simp] theorem setStaging_shaft (s : State) (x : Staging) : (s.setStaging x).shaft = s.shaft := rfl
@[simp] theorem setStaging_track (s : State) (x : Staging) : (s.setStaging x).track = s.track := rfl
@[simp] theorem setStaging_sched (s : State) (x : Staging) : (s.setStaging x).sched = s.sched := rfl
@[simp] theorem setStaging_reg (s : State) (x : Staging) : (s.setStaging x).reg = s.reg := rfl
@[simp] theorem setStaging_batch (s : State) (x : Staging) : (s.setStaging x).batch = s.batch := rfl
@[simp] theorem setStaging_sat (s : State) (x : Staging) : (s.setStaging x).sat = s.sat := rfl
@[simp] theorem setStaging_run (s : State) (x : Staging) : (s.setStaging x).run = s.run := rfl
@[simp] theorem setStaging_config (s : State) (x : Staging) : (s.setStaging x).config = s.config := rfl
@[simp] theorem setStaging_ports (s : State) (x : Staging) : (s.setStaging x).ports = s.ports := rfl
@[simp] theorem setStaging_webOk (s : State) (x : Staging) : (s.setStaging x).webOk = s.webOk := rfl
@[simp] theorem setStaging_time (s : State) (x : Staging) : (s.setStaging x).time = s.time := rfl
@[simp] theorem setStaging_freeCount (s : State) (x : Staging) : (s.setStaging x).freeCount = s.freeCount := rfl
@[simp] theorem setStaging_pending (s : State) (x : Staging) : (s.setStaging x).pending = s.pending := rfl

/-! ### setQuadrature -/

@[simp] theorem setQuadrature_profiles (s : State) (a b : Bool) : (s.setQuadrature a b).profiles = s.profiles := rfl
@[simp] theorem setQuadrature_track (s : State) (a b : Bool) : (s.setQuadrature a b).track = s.track := rfl
@[simp] theorem setQuadrature_sched (s : State) (a b : Bool) : (s.setQuadrature a b).sched = s.sched := rfl
@[simp] theorem setQuadrature_reg (s : State) (a b : Bool) : (s.setQuadrature a b).reg = s.reg := rfl
@[simp] theorem setQuadrature_batch (s : State) (a b : Bool) : (s.setQuadrature a b).batch = s.batch := rfl
@[simp] theorem setQuadrature_sat (s : State) (a b : Bool) : (s.setQuadrature a b).sat = s.sat := rfl
@[simp] theorem setQuadrature_run (s : State) (a b : Bool) : (s.setQuadrature a b).run = s.run := rfl
@[simp] theorem setQuadrature_config (s : State) (a b : Bool) : (s.setQuadrature a b).config = s.config := rfl
@[simp] theorem setQuadrature_ports (s : State) (a b : Bool) : (s.setQuadrature a b).ports = s.ports := rfl
@[simp] theorem setQuadrature_webOk (s : State) (a b : Bool) : (s.setQuadrature a b).webOk = s.webOk := rfl
@[simp] theorem setQuadrature_time (s : State) (a b : Bool) : (s.setQuadrature a b).time = s.time := rfl
@[simp] theorem setQuadrature_freeCount (s : State) (a b : Bool) : (s.setQuadrature a b).freeCount = s.freeCount := rfl
@[simp] theorem setQuadrature_pending (s : State) (a b : Bool) : (s.setQuadrature a b).pending = s.pending := rfl

/-! ### setSegments -/

@[simp] theorem setSegments_shaft (s : State) (v : Fin 4) (xs : List SegmentInstance) : (s.setSegments v xs).shaft = s.shaft := rfl
@[simp] theorem setSegments_profiles (s : State) (v : Fin 4) (xs : List SegmentInstance) : (s.setSegments v xs).profiles = s.profiles := rfl
@[simp] theorem setSegments_track (s : State) (v : Fin 4) (xs : List SegmentInstance) : (s.setSegments v xs).track = s.track := rfl
@[simp] theorem setSegments_reg (s : State) (v : Fin 4) (xs : List SegmentInstance) : (s.setSegments v xs).reg = s.reg := rfl
@[simp] theorem setSegments_batch (s : State) (v : Fin 4) (xs : List SegmentInstance) : (s.setSegments v xs).batch = s.batch := rfl
@[simp] theorem setSegments_sat (s : State) (v : Fin 4) (xs : List SegmentInstance) : (s.setSegments v xs).sat = s.sat := rfl
@[simp] theorem setSegments_run (s : State) (v : Fin 4) (xs : List SegmentInstance) : (s.setSegments v xs).run = s.run := rfl
@[simp] theorem setSegments_config (s : State) (v : Fin 4) (xs : List SegmentInstance) : (s.setSegments v xs).config = s.config := rfl
@[simp] theorem setSegments_ports (s : State) (v : Fin 4) (xs : List SegmentInstance) : (s.setSegments v xs).ports = s.ports := rfl
@[simp] theorem setSegments_webOk (s : State) (v : Fin 4) (xs : List SegmentInstance) : (s.setSegments v xs).webOk = s.webOk := rfl
@[simp] theorem setSegments_time (s : State) (v : Fin 4) (xs : List SegmentInstance) : (s.setSegments v xs).time = s.time := rfl
@[simp] theorem setSegments_freeCount (s : State) (v : Fin 4) (xs : List SegmentInstance) : (s.setSegments v xs).freeCount = s.freeCount := rfl
@[simp] theorem setSegments_pending (s : State) (v : Fin 4) (xs : List SegmentInstance) : (s.setSegments v xs).pending = s.pending := rfl

/-! ### openSegment -/

@[simp] theorem openSegment_shaft (v : Fin 4) (i : SegmentInstance) (s : State) : (openSegment v i s).shaft = s.shaft := rfl
@[simp] theorem openSegment_profiles (v : Fin 4) (i : SegmentInstance) (s : State) : (openSegment v i s).profiles = s.profiles := rfl
@[simp] theorem openSegment_track (v : Fin 4) (i : SegmentInstance) (s : State) : (openSegment v i s).track = s.track := rfl
@[simp] theorem openSegment_reg (v : Fin 4) (i : SegmentInstance) (s : State) : (openSegment v i s).reg = s.reg := rfl
@[simp] theorem openSegment_batch (v : Fin 4) (i : SegmentInstance) (s : State) : (openSegment v i s).batch = s.batch := rfl
@[simp] theorem openSegment_sat (v : Fin 4) (i : SegmentInstance) (s : State) : (openSegment v i s).sat = s.sat := rfl
@[simp] theorem openSegment_run (v : Fin 4) (i : SegmentInstance) (s : State) : (openSegment v i s).run = s.run := rfl
@[simp] theorem openSegment_config (v : Fin 4) (i : SegmentInstance) (s : State) : (openSegment v i s).config = s.config := rfl
@[simp] theorem openSegment_ports (v : Fin 4) (i : SegmentInstance) (s : State) : (openSegment v i s).ports = s.ports := rfl
@[simp] theorem openSegment_webOk (v : Fin 4) (i : SegmentInstance) (s : State) : (openSegment v i s).webOk = s.webOk := rfl
@[simp] theorem openSegment_time (v : Fin 4) (i : SegmentInstance) (s : State) : (openSegment v i s).time = s.time := rfl
@[simp] theorem openSegment_freeCount (v : Fin 4) (i : SegmentInstance) (s : State) : (openSegment v i s).freeCount = s.freeCount := rfl
@[simp] theorem openSegment_pending (v : Fin 4) (i : SegmentInstance) (s : State) : (openSegment v i s).pending = s.pending := rfl

/-! ### fireValveOff -/

@[simp] theorem fireValveOff_shaft (v k : Fin 4) (c : Serial) (s : State) : (fireValveOff v k c s).shaft = s.shaft := rfl
@[simp] theorem fireValveOff_profiles (v k : Fin 4) (c : Serial) (s : State) : (fireValveOff v k c s).profiles = s.profiles := rfl
@[simp] theorem fireValveOff_track (v k : Fin 4) (c : Serial) (s : State) : (fireValveOff v k c s).track = s.track := rfl
@[simp] theorem fireValveOff_reg (v k : Fin 4) (c : Serial) (s : State) : (fireValveOff v k c s).reg = s.reg := rfl
@[simp] theorem fireValveOff_batch (v k : Fin 4) (c : Serial) (s : State) : (fireValveOff v k c s).batch = s.batch := rfl
@[simp] theorem fireValveOff_sat (v k : Fin 4) (c : Serial) (s : State) : (fireValveOff v k c s).sat = s.sat := rfl
@[simp] theorem fireValveOff_run (v k : Fin 4) (c : Serial) (s : State) : (fireValveOff v k c s).run = s.run := rfl
@[simp] theorem fireValveOff_config (v k : Fin 4) (c : Serial) (s : State) : (fireValveOff v k c s).config = s.config := rfl
@[simp] theorem fireValveOff_ports (v k : Fin 4) (c : Serial) (s : State) : (fireValveOff v k c s).ports = s.ports := rfl
@[simp] theorem fireValveOff_webOk (v k : Fin 4) (c : Serial) (s : State) : (fireValveOff v k c s).webOk = s.webOk := rfl
@[simp] theorem fireValveOff_time (v k : Fin 4) (c : Serial) (s : State) : (fireValveOff v k c s).time = s.time := rfl
@[simp] theorem fireValveOff_freeCount (v k : Fin 4) (c : Serial) (s : State) : (fireValveOff v k c s).freeCount = s.freeCount := rfl
@[simp] theorem fireValveOff_pending (v k : Fin 4) (c : Serial) (s : State) : (fireValveOff v k c s).pending = s.pending := rfl

/-! ### closeSegments -/

@[simp] theorem closeSegments_shaft (s : State) : (closeSegments s).shaft = s.shaft := rfl
@[simp] theorem closeSegments_profiles (s : State) : (closeSegments s).profiles = s.profiles := rfl
@[simp] theorem closeSegments_track (s : State) : (closeSegments s).track = s.track := rfl
@[simp] theorem closeSegments_reg (s : State) : (closeSegments s).reg = s.reg := rfl
@[simp] theorem closeSegments_batch (s : State) : (closeSegments s).batch = s.batch := rfl
@[simp] theorem closeSegments_sat (s : State) : (closeSegments s).sat = s.sat := rfl
@[simp] theorem closeSegments_run (s : State) : (closeSegments s).run = s.run := rfl
@[simp] theorem closeSegments_config (s : State) : (closeSegments s).config = s.config := rfl
@[simp] theorem closeSegments_ports (s : State) : (closeSegments s).ports = s.ports := rfl
@[simp] theorem closeSegments_webOk (s : State) : (closeSegments s).webOk = s.webOk := rfl
@[simp] theorem closeSegments_time (s : State) : (closeSegments s).time = s.time := rfl
@[simp] theorem closeSegments_freeCount (s : State) : (closeSegments s).freeCount = s.freeCount := rfl
@[simp] theorem closeSegments_pending (s : State) : (closeSegments s).pending = s.pending := rfl

/-! ### setValveOutputs -/

@[simp] theorem setValveOutputs_shaft (s : State) : (setValveOutputs s).shaft = s.shaft := rfl
@[simp] theorem setValveOutputs_profiles (s : State) : (setValveOutputs s).profiles = s.profiles := rfl
@[simp] theorem setValveOutputs_track (s : State) : (setValveOutputs s).track = s.track := rfl
@[simp] theorem setValveOutputs_reg (s : State) : (setValveOutputs s).reg = s.reg := rfl
@[simp] theorem setValveOutputs_batch (s : State) : (setValveOutputs s).batch = s.batch := rfl
@[simp] theorem setValveOutputs_sat (s : State) : (setValveOutputs s).sat = s.sat := rfl
@[simp] theorem setValveOutputs_run (s : State) : (setValveOutputs s).run = s.run := rfl
@[simp] theorem setValveOutputs_config (s : State) : (setValveOutputs s).config = s.config := rfl
@[simp] theorem setValveOutputs_ports (s : State) : (setValveOutputs s).ports = s.ports := rfl
@[simp] theorem setValveOutputs_webOk (s : State) : (setValveOutputs s).webOk = s.webOk := rfl
@[simp] theorem setValveOutputs_time (s : State) : (setValveOutputs s).time = s.time := rfl
@[simp] theorem setValveOutputs_freeCount (s : State) : (setValveOutputs s).freeCount = s.freeCount := rfl
@[simp] theorem setValveOutputs_pending (s : State) : (setValveOutputs s).pending = s.pending := rfl

/-! ### leaveLive -/

@[simp] theorem leaveLive_shaft (s : State) : (leaveLive s).shaft = s.shaft := rfl
@[simp] theorem leaveLive_profiles (s : State) : (leaveLive s).profiles = s.profiles := rfl
@[simp] theorem leaveLive_track (s : State) : (leaveLive s).track = s.track := rfl
@[simp] theorem leaveLive_reg (s : State) : (leaveLive s).reg = s.reg := rfl
@[simp] theorem leaveLive_batch (s : State) : (leaveLive s).batch = s.batch := rfl
@[simp] theorem leaveLive_sat (s : State) : (leaveLive s).sat = s.sat := rfl
@[simp] theorem leaveLive_run (s : State) : (leaveLive s).run = s.run := rfl
@[simp] theorem leaveLive_config (s : State) : (leaveLive s).config = s.config := rfl
@[simp] theorem leaveLive_ports (s : State) : (leaveLive s).ports = s.ports := rfl
@[simp] theorem leaveLive_webOk (s : State) : (leaveLive s).webOk = s.webOk := rfl
@[simp] theorem leaveLive_time (s : State) : (leaveLive s).time = s.time := rfl
@[simp] theorem leaveLive_freeCount (s : State) : (leaveLive s).freeCount = s.freeCount := rfl
@[simp] theorem leaveLive_pending (s : State) : (leaveLive s).pending = s.pending := rfl

/-! ### setGateLevel -/

@[simp] theorem setGateLevel_shaft (l : Bool) (s : State) : (setGateLevel l s).shaft = s.shaft := rfl
@[simp] theorem setGateLevel_profiles (l : Bool) (s : State) : (setGateLevel l s).profiles = s.profiles := rfl
@[simp] theorem setGateLevel_track (l : Bool) (s : State) : (setGateLevel l s).track = s.track := rfl
@[simp] theorem setGateLevel_reg (l : Bool) (s : State) : (setGateLevel l s).reg = s.reg := rfl
@[simp] theorem setGateLevel_batch (l : Bool) (s : State) : (setGateLevel l s).batch = s.batch := rfl
@[simp] theorem setGateLevel_sat (l : Bool) (s : State) : (setGateLevel l s).sat = s.sat := rfl
@[simp] theorem setGateLevel_run (l : Bool) (s : State) : (setGateLevel l s).run = s.run := rfl
@[simp] theorem setGateLevel_config (l : Bool) (s : State) : (setGateLevel l s).config = s.config := rfl
@[simp] theorem setGateLevel_ports (l : Bool) (s : State) : (setGateLevel l s).ports = s.ports := rfl
@[simp] theorem setGateLevel_webOk (l : Bool) (s : State) : (setGateLevel l s).webOk = s.webOk := rfl
@[simp] theorem setGateLevel_time (l : Bool) (s : State) : (setGateLevel l s).time = s.time := rfl
@[simp] theorem setGateLevel_freeCount (l : Bool) (s : State) : (setGateLevel l s).freeCount = s.freeCount := rfl
@[simp] theorem setGateLevel_pending (l : Bool) (s : State) : (setGateLevel l s).pending = s.pending := rfl

/-! ### addRecord -/

@[simp] theorem addRecord_shaft (i : Fin 4) (s : State) : (addRecord i s).shaft = s.shaft := rfl
@[simp] theorem addRecord_profiles (i : Fin 4) (s : State) : (addRecord i s).profiles = s.profiles := rfl
@[simp] theorem addRecord_sched (i : Fin 4) (s : State) : (addRecord i s).sched = s.sched := rfl
@[simp] theorem addRecord_reg (i : Fin 4) (s : State) : (addRecord i s).reg = s.reg := rfl
@[simp] theorem addRecord_batch (i : Fin 4) (s : State) : (addRecord i s).batch = s.batch := rfl
@[simp] theorem addRecord_sat (i : Fin 4) (s : State) : (addRecord i s).sat = s.sat := rfl
@[simp] theorem addRecord_run (i : Fin 4) (s : State) : (addRecord i s).run = s.run := rfl
@[simp] theorem addRecord_config (i : Fin 4) (s : State) : (addRecord i s).config = s.config := rfl
@[simp] theorem addRecord_ports (i : Fin 4) (s : State) : (addRecord i s).ports = s.ports := rfl
@[simp] theorem addRecord_webOk (i : Fin 4) (s : State) : (addRecord i s).webOk = s.webOk := rfl
@[simp] theorem addRecord_time (i : Fin 4) (s : State) : (addRecord i s).time = s.time := rfl
@[simp] theorem addRecord_freeCount (i : Fin 4) (s : State) : (addRecord i s).freeCount = s.freeCount := rfl
@[simp] theorem addRecord_pending (i : Fin 4) (s : State) : (addRecord i s).pending = s.pending := rfl

/-! ### markFault -/

@[simp] theorem markFault_shaft (s : State) : (markFault s).shaft = s.shaft := rfl
@[simp] theorem markFault_profiles (s : State) : (markFault s).profiles = s.profiles := rfl
@[simp] theorem markFault_sched (s : State) : (markFault s).sched = s.sched := rfl
@[simp] theorem markFault_reg (s : State) : (markFault s).reg = s.reg := rfl
@[simp] theorem markFault_batch (s : State) : (markFault s).batch = s.batch := rfl
@[simp] theorem markFault_sat (s : State) : (markFault s).sat = s.sat := rfl
@[simp] theorem markFault_run (s : State) : (markFault s).run = s.run := rfl
@[simp] theorem markFault_config (s : State) : (markFault s).config = s.config := rfl
@[simp] theorem markFault_ports (s : State) : (markFault s).ports = s.ports := rfl
@[simp] theorem markFault_webOk (s : State) : (markFault s).webOk = s.webOk := rfl
@[simp] theorem markFault_time (s : State) : (markFault s).time = s.time := rfl
@[simp] theorem markFault_freeCount (s : State) : (markFault s).freeCount = s.freeCount := rfl
@[simp] theorem markFault_pending (s : State) : (markFault s).pending = s.pending := rfl

/-! ### setHomed -/

@[simp] theorem setHomed_profiles (c : Serial) (s : State) : (setHomed c s).profiles = s.profiles := rfl
@[simp] theorem setHomed_track (c : Serial) (s : State) : (setHomed c s).track = s.track := rfl
@[simp] theorem setHomed_sched (c : Serial) (s : State) : (setHomed c s).sched = s.sched := rfl
@[simp] theorem setHomed_reg (c : Serial) (s : State) : (setHomed c s).reg = s.reg := rfl
@[simp] theorem setHomed_batch (c : Serial) (s : State) : (setHomed c s).batch = s.batch := rfl
@[simp] theorem setHomed_sat (c : Serial) (s : State) : (setHomed c s).sat = s.sat := rfl
@[simp] theorem setHomed_run (c : Serial) (s : State) : (setHomed c s).run = s.run := rfl
@[simp] theorem setHomed_config (c : Serial) (s : State) : (setHomed c s).config = s.config := rfl
@[simp] theorem setHomed_ports (c : Serial) (s : State) : (setHomed c s).ports = s.ports := rfl
@[simp] theorem setHomed_webOk (c : Serial) (s : State) : (setHomed c s).webOk = s.webOk := rfl
@[simp] theorem setHomed_time (c : Serial) (s : State) : (setHomed c s).time = s.time := rfl
@[simp] theorem setHomed_freeCount (c : Serial) (s : State) : (setHomed c s).freeCount = s.freeCount := rfl
@[simp] theorem setHomed_pending (c : Serial) (s : State) : (setHomed c s).pending = s.pending := rfl

/-! ### respond -/

@[simp] theorem respond_shaft (p : PortId) (r : Response) (s : State) : (respond p r s).shaft = s.shaft := rfl
@[simp] theorem respond_profiles (p : PortId) (r : Response) (s : State) : (respond p r s).profiles = s.profiles := rfl
@[simp] theorem respond_track (p : PortId) (r : Response) (s : State) : (respond p r s).track = s.track := rfl
@[simp] theorem respond_sched (p : PortId) (r : Response) (s : State) : (respond p r s).sched = s.sched := rfl
@[simp] theorem respond_reg (p : PortId) (r : Response) (s : State) : (respond p r s).reg = s.reg := rfl
@[simp] theorem respond_batch (p : PortId) (r : Response) (s : State) : (respond p r s).batch = s.batch := rfl
@[simp] theorem respond_sat (p : PortId) (r : Response) (s : State) : (respond p r s).sat = s.sat := rfl
@[simp] theorem respond_run (p : PortId) (r : Response) (s : State) : (respond p r s).run = s.run := rfl
@[simp] theorem respond_config (p : PortId) (r : Response) (s : State) : (respond p r s).config = s.config := rfl
@[simp] theorem respond_webOk (p : PortId) (r : Response) (s : State) : (respond p r s).webOk = s.webOk := rfl
@[simp] theorem respond_time (p : PortId) (r : Response) (s : State) : (respond p r s).time = s.time := rfl
@[simp] theorem respond_freeCount (p : PortId) (r : Response) (s : State) : (respond p r s).freeCount = s.freeCount := rfl
@[simp] theorem respond_pending (p : PortId) (r : Response) (s : State) : (respond p r s).pending = s.pending := rfl

/-! ### What the updates write -/

@[simp] theorem port_get_set_self (x : Ports) (p : PortId) (v : Port) : (x.set p v).get p = v := by cases p <;> rfl

@[simp] theorem port_get_set_of_ne (x : Ports) {p q : PortId} (v : Port) (h : q ≠ p) : (x.set p v).get q = x.get q := by
  cases p <;> cases q <;> first | rfl | exact absurd rfl h

@[simp] theorem setPort_port_self (s : State) (p : PortId) (v : Port) : (s.setPort p v).port p = v := port_get_set_self _ _ _

@[simp] theorem setPort_port_of_ne (s : State) {p q : PortId} (v : Port) (h : q ≠ p) : (s.setPort p v).port q = s.port q :=
  port_get_set_of_ne _ _ h

@[simp] theorem setPort_setPort (s : State) (p : PortId) (v w : Port) : (s.setPort p v).setPort p w = s.setPort p w := by
  cases p <;> rfl

/-- A posted notice reaches each port on its own (R195). -/
@[simp] theorem post_port (n : Notice) (s : State) (p : PortId) : (post n s).port p = (s.port p).queueNotice n := by cases p <;> rfl

@[simp] theorem setRun_runState (s : State) (r : RunState) (c : CauseSet) : (s.setRun r c).run.runState = r := rfl

@[simp] theorem setRun_causes (s : State) (r : RunState) (c : CauseSet) : (s.setRun r c).run.causes = c := rfl

@[simp] theorem setRun_permit (s : State) (r : RunState) (c : CauseSet) : (s.setRun r c).run.permit = permitOf r c := rfl

@[simp] theorem updateBlank_nextSerial (s : State) (n : Serial) (f : Blank → Blank) :
    (s.updateBlank n f).track.nextSerial = s.track.nextSerial := rfl

@[simp] theorem updateBlank_highWater (s : State) (n : Serial) (f : Blank → Blank) :
    (s.updateBlank n f).track.highWater = s.track.highWater := rfl

@[simp] theorem updateBlank_splicePending (s : State) (n : Serial) (f : Blank → Blank) :
    (s.updateBlank n f).track.splicePending = s.track.splicePending := rfl

theorem updateBlank_records (s : State) (n : Serial) (f : Blank → Blank) :
    (s.updateBlank n f).track.records = s.track.records.map fun b => if b.serial = n then f b else b := rfl

@[simp] theorem setSlot_segments (s : State) (pt : TimedPoint) (a : ActionSlot) :
    (s.setSlot pt a).sched.segments = s.sched.segments := rfl

@[simp] theorem setSlot_outputs (s : State) (pt : TimedPoint) (a : ActionSlot) :
    (s.setSlot pt a).sched.outputs = s.sched.outputs := rfl

@[simp] theorem setSlot_gateLevel (s : State) (pt : TimedPoint) (a : ActionSlot) :
    (s.setSlot pt a).sched.gateLevel = s.sched.gateLevel := rfl

@[simp] theorem setSlot_pulse (s : State) (pt : TimedPoint) (a : ActionSlot) (ch : PulseChannel) :
    (s.setSlot pt a).sched.pulse ch = s.sched.pulse ch := by cases ch <;> rfl

/-- The list of all points runs in the order of their slots (R57). -/
theorem allPoints_pointIndex (p : TimedPoint) : allPoints[(pointIndex p).val]? = some p := by
  cases p with
  | valveOn v k => revert v k; decide
  | valveOff v k => revert v k; decide
  | _ => rfl

/-- No two points share a slot (R57). -/
theorem pointIndex_injective {p q : TimedPoint} (h : pointIndex p = pointIndex q) : p = q :=
  Option.some.inj ((allPoints_pointIndex p).symm.trans ((congrArg (fun i : Fin 42 => allPoints[i.val]?) h).trans
    (allPoints_pointIndex q)))

@[simp] theorem setSlot_slot_self (s : State) (pt : TimedPoint) (a : ActionSlot) : (s.setSlot pt a).slot pt = a := by
  simp [State.slot, State.setSlot, Sched.slot, Sched.setSlot]

@[simp] theorem setSlot_slot_of_ne (s : State) {pt q : TimedPoint} (a : ActionSlot) (h : q ≠ pt) :
    (s.setSlot pt a).slot q = s.slot q := by
  have hne : (pointIndex pt).val ≠ (pointIndex q).val := fun e => h (pointIndex_injective (Fin.ext e)).symm
  simp [State.slot, State.setSlot, Sched.slot, Sched.setSlot, hne]

@[simp] theorem setChannel_channel_self (s : State) (ch : RegChannel) (x : Channel) : (s.setChannel ch x).channel ch = x := by
  cases ch <;> rfl

@[simp] theorem setChannel_waiting (s : State) (ch : RegChannel) (x : Channel) :
    (s.setChannel ch x).reg.waiting = s.reg.waiting := by cases ch <;> rfl

@[simp] theorem setChannel_knives (s : State) (ch : RegChannel) (x : Channel) :
    (s.setChannel ch x).reg.knives = s.reg.knives := by cases ch <;> rfl

@[simp] theorem setOpenBatch_openBatch (s : State) (b : OpenBatch) : (s.setOpenBatch b).openBatch = b := rfl

@[simp] theorem setOpenBatch_queue (s : State) (b : OpenBatch) : (s.setOpenBatch b).batch.queue = s.batch.queue := rfl

@[simp] theorem setEntry_entry_self (s : State) (n : Fin 8) (e : SampleEntry) : (s.setEntry n e).entry n = e := by
  simp [State.entry, State.setEntry]

@[simp] theorem setEntry_entry_of_ne (s : State) {n m : Fin 8} (e : SampleEntry) (h : m ≠ n) :
    (s.setEntry n e).entry m = s.entry m := by
  have hne : n.val ≠ m.val := fun he => h (Fin.ext he).symm
  simp [State.entry, State.setEntry, hne]

@[simp] theorem setStaging_staging (s : State) (x : Staging) : (s.setStaging x).staging = x := rfl

@[simp] theorem setSlot_profile_self (p : Profiles) (i : Fin 4) (x : ProfileSlot) : (p.setSlot i x).slot i = x := by
  simp [Profiles.slot, Profiles.setSlot]

@[simp] theorem setSlot_profile_of_ne (p : Profiles) {i j : Fin 4} (x : ProfileSlot) (h : j ≠ i) :
    (p.setSlot i x).slot j = p.slot j := by
  have hne : i.val ≠ j.val := fun he => h (Fin.ext he).symm
  simp [Profiles.slot, Profiles.setSlot, hne]

@[simp] theorem setState_slot_self (p : Profiles) (i : Fin 4) (x : SlotState) :
    (p.setState i x).slot i = { p.slot i with state := x } := setSlot_profile_self _ _ _

@[simp] theorem setState_slot_of_ne (p : Profiles) {i j : Fin 4} (x : SlotState) (h : j ≠ i) :
    (p.setState i x).slot j = p.slot j := setSlot_profile_of_ne _ _ h

@[simp] theorem setState_arm (p : Profiles) (i : Fin 4) (x : SlotState) : (p.setState i x).arm = p.arm := rfl

@[simp] theorem setState_staging (p : Profiles) (i : Fin 4) (x : SlotState) : (p.setState i x).staging = p.staging := rfl

/-- A state change keeps every content (R21). -/
@[simp] theorem setState_contentOf (p : Profiles) (i j : Fin 4) (x : SlotState) : (p.setState i x).contentOf j = p.contentOf j := by
  by_cases h : j = i
  · subst h
    change ((p.setState j x).slot j).content = (p.slot j).content
    rw [setState_slot_self]
  · change ((p.setState i x).slot j).content = (p.slot j).content
    rw [setState_slot_of_ne p x h]

@[simp] theorem mapVector_getElem {α β : Type} {n : Nat} (f : α → β) (v : Vector α n) (i : Nat) (h : i < n) :
    (mapVector f v)[i] = f v[i] := by
  simp [mapVector]


end Sys2Proof.Machine
end

