-- ==== Sys2Proof/Laws/Frames.lean ====
section
/-! SUPPORT. For each operation that the commands share, which parts of the state it leaves alone; operations that can hand a
halt cause keep the run state. -/

namespace Sys2Proof.Machine

/-- R167: a handed cause touches the halt cause set, PERMIT and the notice queues. -/
@[simp] theorem handCause_frame (c : HaltCause) (s : State) :
    (handCause c s).shaft = s.shaft ∧ (handCause c s).profiles = s.profiles ∧ (handCause c s).track = s.track
      ∧ (handCause c s).sched = s.sched ∧ (handCause c s).reg = s.reg ∧ (handCause c s).batch = s.batch
      ∧ (handCause c s).sat = s.sat ∧ (handCause c s).config = s.config ∧ (handCause c s).webOk = s.webOk
      ∧ (handCause c s).time = s.time ∧ (handCause c s).freeCount = s.freeCount ∧ (handCause c s).pending = s.pending
      ∧ (handCause c s).run.runState = s.run.runState := by
  unfold handCause
  (repeat' split) <;> simp

@[simp] theorem retireCheck_frame (s : State) :
    (retireCheck s).shaft = s.shaft ∧ (retireCheck s).track = s.track ∧ (retireCheck s).sched = s.sched
      ∧ (retireCheck s).reg = s.reg ∧ (retireCheck s).batch = s.batch ∧ (retireCheck s).sat = s.sat
      ∧ (retireCheck s).run = s.run ∧ (retireCheck s).config = s.config ∧ (retireCheck s).webOk = s.webOk
      ∧ (retireCheck s).time = s.time ∧ (retireCheck s).freeCount = s.freeCount ∧ (retireCheck s).pending = s.pending := by
  unfold retireCheck
  (repeat' split) <;> simp

@[simp] theorem takeChangeover_frame (arm : ChangeoverArm) (n : Serial) (s : State) :
    (takeChangeover arm n s).shaft = s.shaft ∧ (takeChangeover arm n s).track = s.track
      ∧ (takeChangeover arm n s).sched = s.sched ∧ (takeChangeover arm n s).reg = s.reg
      ∧ (takeChangeover arm n s).batch = s.batch ∧ (takeChangeover arm n s).sat = s.sat
      ∧ (takeChangeover arm n s).run = s.run ∧ (takeChangeover arm n s).config = s.config
      ∧ (takeChangeover arm n s).webOk = s.webOk ∧ (takeChangeover arm n s).time = s.time
      ∧ (takeChangeover arm n s).freeCount = s.freeCount ∧ (takeChangeover arm n s).pending = s.pending := by
  unfold takeChangeover
  (repeat' split) <;> simp

@[simp] theorem changeoverAt_frame (n : Serial) (s : State) :
    (changeoverAt n s).shaft = s.shaft ∧ (changeoverAt n s).track = s.track ∧ (changeoverAt n s).sched = s.sched
      ∧ (changeoverAt n s).reg = s.reg ∧ (changeoverAt n s).batch = s.batch ∧ (changeoverAt n s).sat = s.sat
      ∧ (changeoverAt n s).run = s.run ∧ (changeoverAt n s).config = s.config ∧ (changeoverAt n s).webOk = s.webOk
      ∧ (changeoverAt n s).time = s.time ∧ (changeoverAt n s).freeCount = s.freeCount
      ∧ (changeoverAt n s).pending = s.pending := by
  unfold changeoverAt
  (repeat' split) <;> simp

@[simp] theorem markSpliceSeen_frame (s : State) :
    (markSpliceSeen s).shaft = s.shaft ∧ (markSpliceSeen s).track = s.track ∧ (markSpliceSeen s).sched = s.sched
      ∧ (markSpliceSeen s).reg = s.reg ∧ (markSpliceSeen s).batch = s.batch ∧ (markSpliceSeen s).sat = s.sat
      ∧ (markSpliceSeen s).run = s.run ∧ (markSpliceSeen s).config = s.config ∧ (markSpliceSeen s).ports = s.ports
      ∧ (markSpliceSeen s).webOk = s.webOk ∧ (markSpliceSeen s).time = s.time
      ∧ (markSpliceSeen s).freeCount = s.freeCount ∧ (markSpliceSeen s).pending = s.pending := by
  unfold markSpliceSeen
  (repeat' split) <;> simp

@[simp] theorem retarget_frame (pt : TimedPoint) (s : State) :
    (retarget pt s).shaft = s.shaft ∧ (retarget pt s).profiles = s.profiles ∧ (retarget pt s).reg = s.reg
      ∧ (retarget pt s).batch = s.batch ∧ (retarget pt s).sat = s.sat ∧ (retarget pt s).run = s.run
      ∧ (retarget pt s).config = s.config ∧ (retarget pt s).ports = s.ports ∧ (retarget pt s).webOk = s.webOk
      ∧ (retarget pt s).time = s.time ∧ (retarget pt s).freeCount = s.freeCount ∧ (retarget pt s).pending = s.pending := by
  unfold retarget
  dsimp only
  (repeat' split) <;> simp

@[simp] theorem armSlot_frame (pt : TimedPoint) (c : Serial) (s : State) :
    (armSlot pt c s).shaft = s.shaft ∧ (armSlot pt c s).profiles = s.profiles ∧ (armSlot pt c s).reg = s.reg
      ∧ (armSlot pt c s).batch = s.batch ∧ (armSlot pt c s).sat = s.sat ∧ (armSlot pt c s).run = s.run
      ∧ (armSlot pt c s).config = s.config ∧ (armSlot pt c s).ports = s.ports ∧ (armSlot pt c s).webOk = s.webOk
      ∧ (armSlot pt c s).time = s.time ∧ (armSlot pt c s).freeCount = s.freeCount ∧ (armSlot pt c s).pending = s.pending := by
  simp [armSlot]

/-- What every step of a fold keeps, the fold keeps. -/
theorem foldl_keeps {α β : Type} (keep : State → β) (f : State → α → State) (h : ∀ s x, keep (f s x) = keep s) (xs : List α)
    (s : State) : keep (xs.foldl f s) = keep s := by
  induction xs generalizing s with
  | nil => rfl
  | cons x xs ih => rw [List.foldl_cons, ih, h]

@[simp] theorem armWaiting_frame (c : Serial) (s : State) :
    (armWaiting c s).shaft = s.shaft ∧ (armWaiting c s).profiles = s.profiles ∧ (armWaiting c s).reg = s.reg
      ∧ (armWaiting c s).batch = s.batch ∧ (armWaiting c s).sat = s.sat ∧ (armWaiting c s).run = s.run
      ∧ (armWaiting c s).config = s.config ∧ (armWaiting c s).ports = s.ports ∧ (armWaiting c s).webOk = s.webOk
      ∧ (armWaiting c s).time = s.time ∧ (armWaiting c s).freeCount = s.freeCount ∧ (armWaiting c s).pending = s.pending := by
  unfold armWaiting
  refine ⟨?_, ?_, ?_, ?_, ?_, ?_, ?_, ?_, ?_, ?_, ?_, ?_⟩
  · exact foldl_keeps State.shaft _ (fun s x => by split <;> simp) _ _
  · exact foldl_keeps State.profiles _ (fun s x => by split <;> simp) _ _
  · exact foldl_keeps State.reg _ (fun s x => by split <;> simp) _ _
  · exact foldl_keeps State.batch _ (fun s x => by split <;> simp) _ _
  · exact foldl_keeps State.sat _ (fun s x => by split <;> simp) _ _
  · exact foldl_keeps State.run _ (fun s x => by split <;> simp) _ _
  · exact foldl_keeps State.config _ (fun s x => by split <;> simp) _ _
  · exact foldl_keeps State.ports _ (fun s x => by split <;> simp) _ _
  · exact foldl_keeps State.webOk _ (fun s x => by split <;> simp) _ _
  · exact foldl_keeps State.time _ (fun s x => by split <;> simp) _ _
  · exact foldl_keeps State.freeCount _ (fun s x => by split <;> simp) _ _
  · exact foldl_keeps State.pending _ (fun s x => by split <;> simp) _ _

@[simp] theorem armAtHoming_frame (c : Serial) (s : State) :
    (armAtHoming c s).shaft = s.shaft ∧ (armAtHoming c s).profiles = s.profiles ∧ (armAtHoming c s).reg = s.reg
      ∧ (armAtHoming c s).batch = s.batch ∧ (armAtHoming c s).sat = s.sat ∧ (armAtHoming c s).run = s.run
      ∧ (armAtHoming c s).config = s.config ∧ (armAtHoming c s).ports = s.ports ∧ (armAtHoming c s).webOk = s.webOk
      ∧ (armAtHoming c s).time = s.time ∧ (armAtHoming c s).freeCount = s.freeCount
      ∧ (armAtHoming c s).pending = s.pending := by
  unfold armAtHoming
  refine ⟨?_, ?_, ?_, ?_, ?_, ?_, ?_, ?_, ?_, ?_, ?_, ?_⟩
  · exact foldl_keeps State.shaft _ (fun s x => by simp) _ _
  · exact foldl_keeps State.profiles _ (fun s x => by simp) _ _
  · exact foldl_keeps State.reg _ (fun s x => by simp) _ _
  · exact foldl_keeps State.batch _ (fun s x => by simp) _ _
  · exact foldl_keeps State.sat _ (fun s x => by simp) _ _
  · exact foldl_keeps State.run _ (fun s x => by simp) _ _
  · exact foldl_keeps State.config _ (fun s x => by simp) _ _
  · exact foldl_keeps State.ports _ (fun s x => by simp) _ _
  · exact foldl_keeps State.webOk _ (fun s x => by simp) _ _
  · exact foldl_keeps State.time _ (fun s x => by simp) _ _
  · exact foldl_keeps State.freeCount _ (fun s x => by simp) _ _
  · exact foldl_keeps State.pending _ (fun s x => by simp) _ _

@[simp] theorem recompute_frame (pt : TimedPoint) (s : State) :
    (recompute pt s).shaft = s.shaft ∧ (recompute pt s).profiles = s.profiles ∧ (recompute pt s).reg = s.reg
      ∧ (recompute pt s).batch = s.batch ∧ (recompute pt s).sat = s.sat ∧ (recompute pt s).run = s.run
      ∧ (recompute pt s).config = s.config ∧ (recompute pt s).ports = s.ports ∧ (recompute pt s).webOk = s.webOk
      ∧ (recompute pt s).time = s.time ∧ (recompute pt s).freeCount = s.freeCount ∧ (recompute pt s).pending = s.pending := by
  unfold recompute
  (repeat' split) <;> simp

@[simp] theorem recomputeAll_frame (s : State) :
    (recomputeAll s).shaft = s.shaft ∧ (recomputeAll s).profiles = s.profiles ∧ (recomputeAll s).reg = s.reg
      ∧ (recomputeAll s).batch = s.batch ∧ (recomputeAll s).sat = s.sat ∧ (recomputeAll s).run = s.run
      ∧ (recomputeAll s).config = s.config ∧ (recomputeAll s).ports = s.ports ∧ (recomputeAll s).webOk = s.webOk
      ∧ (recomputeAll s).time = s.time ∧ (recomputeAll s).freeCount = s.freeCount ∧ (recomputeAll s).pending = s.pending := by
  unfold recomputeAll
  refine ⟨?_, ?_, ?_, ?_, ?_, ?_, ?_, ?_, ?_, ?_, ?_, ?_⟩
  · exact foldl_keeps State.shaft _ (fun s x => by simp) _ _
  · exact foldl_keeps State.profiles _ (fun s x => by simp) _ _
  · exact foldl_keeps State.reg _ (fun s x => by simp) _ _
  · exact foldl_keeps State.batch _ (fun s x => by simp) _ _
  · exact foldl_keeps State.sat _ (fun s x => by simp) _ _
  · exact foldl_keeps State.run _ (fun s x => by simp) _ _
  · exact foldl_keeps State.config _ (fun s x => by simp) _ _
  · exact foldl_keeps State.ports _ (fun s x => by simp) _ _
  · exact foldl_keeps State.webOk _ (fun s x => by simp) _ _
  · exact foldl_keeps State.time _ (fun s x => by simp) _ _
  · exact foldl_keeps State.freeCount _ (fun s x => by simp) _ _
  · exact foldl_keeps State.pending _ (fun s x => by simp) _ _

@[simp] theorem startPulse_frame (ch : PulseChannel) (s : State) :
    (startPulse ch s).shaft = s.shaft ∧ (startPulse ch s).profiles = s.profiles ∧ (startPulse ch s).track = s.track
      ∧ (startPulse ch s).reg = s.reg ∧ (startPulse ch s).batch = s.batch ∧ (startPulse ch s).sat = s.sat
      ∧ (startPulse ch s).run = s.run ∧ (startPulse ch s).config = s.config ∧ (startPulse ch s).ports = s.ports
      ∧ (startPulse ch s).webOk = s.webOk ∧ (startPulse ch s).time = s.time ∧ (startPulse ch s).freeCount = s.freeCount
      ∧ (startPulse ch s).pending = s.pending := by
  cases ch <;> simp only [startPulse] <;> split <;> simp

@[simp] theorem endPulse_frame (ch : PulseChannel) (s : State) :
    (endPulse ch s).shaft = s.shaft ∧ (endPulse ch s).profiles = s.profiles ∧ (endPulse ch s).track = s.track
      ∧ (endPulse ch s).reg = s.reg ∧ (endPulse ch s).batch = s.batch ∧ (endPulse ch s).sat = s.sat
      ∧ (endPulse ch s).run = s.run ∧ (endPulse ch s).config = s.config ∧ (endPulse ch s).ports = s.ports
      ∧ (endPulse ch s).webOk = s.webOk ∧ (endPulse ch s).time = s.time ∧ (endPulse ch s).freeCount = s.freeCount
      ∧ (endPulse ch s).pending = s.pending := by
  cases ch <;> simp [endPulse]

@[simp] theorem fireKick_frame (s : State) :
    (fireKick s).shaft = s.shaft ∧ (fireKick s).profiles = s.profiles ∧ (fireKick s).track = s.track
      ∧ (fireKick s).reg = s.reg ∧ (fireKick s).batch = s.batch ∧ (fireKick s).sat = s.sat ∧ (fireKick s).run = s.run
      ∧ (fireKick s).config = s.config ∧ (fireKick s).ports = s.ports ∧ (fireKick s).webOk = s.webOk
      ∧ (fireKick s).time = s.time ∧ (fireKick s).freeCount = s.freeCount ∧ (fireKick s).pending = s.pending := by
  simp [fireKick]

@[simp] theorem armKick_frame (c : Serial) (s : State) :
    (armKick c s).shaft = s.shaft ∧ (armKick c s).profiles = s.profiles ∧ (armKick c s).reg = s.reg
      ∧ (armKick c s).batch = s.batch ∧ (armKick c s).sat = s.sat ∧ (armKick c s).run = s.run
      ∧ (armKick c s).config = s.config ∧ (armKick c s).ports = s.ports ∧ (armKick c s).webOk = s.webOk
      ∧ (armKick c s).time = s.time ∧ (armKick c s).freeCount = s.freeCount ∧ (armKick c s).pending = s.pending := by
  unfold armKick
  split
  · simp only
    split <;> simp
  · simp

@[simp] theorem openWindow_frame (ch : RegChannel) (n c : Serial) (s : State) :
    (openWindow ch n c s).shaft = s.shaft ∧ (openWindow ch n c s).profiles = s.profiles
      ∧ (openWindow ch n c s).track = s.track ∧ (openWindow ch n c s).sched = s.sched
      ∧ (openWindow ch n c s).batch = s.batch ∧ (openWindow ch n c s).sat = s.sat ∧ (openWindow ch n c s).run = s.run
      ∧ (openWindow ch n c s).config = s.config ∧ (openWindow ch n c s).ports = s.ports
      ∧ (openWindow ch n c s).webOk = s.webOk ∧ (openWindow ch n c s).time = s.time
      ∧ (openWindow ch n c s).freeCount = s.freeCount ∧ (openWindow ch n c s).pending = s.pending := by
  unfold openWindow
  (repeat' split) <;> simp

@[simp] theorem captureEdge_frame (ch : RegChannel) (s : State) :
    (captureEdge ch s).shaft = s.shaft ∧ (captureEdge ch s).profiles = s.profiles ∧ (captureEdge ch s).track = s.track
      ∧ (captureEdge ch s).sched = s.sched ∧ (captureEdge ch s).batch = s.batch ∧ (captureEdge ch s).sat = s.sat
      ∧ (captureEdge ch s).run = s.run ∧ (captureEdge ch s).config = s.config ∧ (captureEdge ch s).ports = s.ports
      ∧ (captureEdge ch s).webOk = s.webOk ∧ (captureEdge ch s).time = s.time
      ∧ (captureEdge ch s).freeCount = s.freeCount ∧ (captureEdge ch s).pending = s.pending := by
  unfold captureEdge
  (repeat' split) <;> simp

@[simp] theorem postRegister_frame (ch : RegChannel) (n : Serial) (s : State) :
    (postRegister ch n s).shaft = s.shaft ∧ (postRegister ch n s).profiles = s.profiles
      ∧ (postRegister ch n s).track = s.track ∧ (postRegister ch n s).sched = s.sched
      ∧ (postRegister ch n s).reg = s.reg ∧ (postRegister ch n s).batch = s.batch ∧ (postRegister ch n s).sat = s.sat
      ∧ (postRegister ch n s).run = s.run ∧ (postRegister ch n s).config = s.config
      ∧ (postRegister ch n s).webOk = s.webOk ∧ (postRegister ch n s).time = s.time
      ∧ (postRegister ch n s).freeCount = s.freeCount ∧ (postRegister ch n s).pending = s.pending := by
  simp [postRegister]

@[simp] theorem countBad_frame (ch : RegChannel) (n : Serial) (s : State) :
    (countBad ch n s).shaft = s.shaft ∧ (countBad ch n s).profiles = s.profiles ∧ (countBad ch n s).track = s.track
      ∧ (countBad ch n s).sched = s.sched ∧ (countBad ch n s).batch = s.batch ∧ (countBad ch n s).sat = s.sat
      ∧ (countBad ch n s).config = s.config ∧ (countBad ch n s).webOk = s.webOk ∧ (countBad ch n s).time = s.time
      ∧ (countBad ch n s).freeCount = s.freeCount ∧ (countBad ch n s).pending = s.pending
      ∧ (countBad ch n s).run.runState = s.run.runState := by
  unfold countBad
  simp only
  split
  · split <;> simp
  · simp

@[simp] theorem countGood_frame (ch : RegChannel) (n : Serial) (s : State) :
    (countGood ch n s).shaft = s.shaft ∧ (countGood ch n s).profiles = s.profiles ∧ (countGood ch n s).track = s.track
      ∧ (countGood ch n s).sched = s.sched ∧ (countGood ch n s).batch = s.batch ∧ (countGood ch n s).sat = s.sat
      ∧ (countGood ch n s).run = s.run ∧ (countGood ch n s).config = s.config ∧ (countGood ch n s).webOk = s.webOk
      ∧ (countGood ch n s).time = s.time ∧ (countGood ch n s).freeCount = s.freeCount
      ∧ (countGood ch n s).pending = s.pending := by
  unfold countGood
  simp only
  split <;> simp

@[simp] theorem judgeCapture_frame (ch : RegChannel) (w : WindowRecord) (angle : Nat) (s : State) :
    (judgeCapture ch w angle s).shaft = s.shaft ∧ (judgeCapture ch w angle s).profiles = s.profiles
      ∧ (judgeCapture ch w angle s).sched = s.sched ∧ (judgeCapture ch w angle s).batch = s.batch
      ∧ (judgeCapture ch w angle s).sat = s.sat ∧ (judgeCapture ch w angle s).config = s.config
      ∧ (judgeCapture ch w angle s).webOk = s.webOk ∧ (judgeCapture ch w angle s).time = s.time
      ∧ (judgeCapture ch w angle s).freeCount = s.freeCount ∧ (judgeCapture ch w angle s).pending = s.pending
      ∧ (judgeCapture ch w angle s).run.runState = s.run.runState := by
  unfold judgeCapture
  simp only
  split <;> simp

@[simp] theorem judgeMissing_frame (ch : RegChannel) (w : WindowRecord) (s : State) :
    (judgeMissing ch w s).shaft = s.shaft ∧ (judgeMissing ch w s).profiles = s.profiles
      ∧ (judgeMissing ch w s).sched = s.sched ∧ (judgeMissing ch w s).batch = s.batch
      ∧ (judgeMissing ch w s).sat = s.sat ∧ (judgeMissing ch w s).config = s.config
      ∧ (judgeMissing ch w s).webOk = s.webOk ∧ (judgeMissing ch w s).time = s.time
      ∧ (judgeMissing ch w s).freeCount = s.freeCount ∧ (judgeMissing ch w s).pending = s.pending
      ∧ (judgeMissing ch w s).run.runState = s.run.runState := by
  simp [judgeMissing]

@[simp] theorem judge_frame (ch : RegChannel) (w : WindowRecord) (s : State) :
    (judge ch w s).shaft = s.shaft ∧ (judge ch w s).profiles = s.profiles ∧ (judge ch w s).sched = s.sched
      ∧ (judge ch w s).batch = s.batch ∧ (judge ch w s).sat = s.sat ∧ (judge ch w s).config = s.config
      ∧ (judge ch w s).webOk = s.webOk ∧ (judge ch w s).time = s.time ∧ (judge ch w s).freeCount = s.freeCount
      ∧ (judge ch w s).pending = s.pending ∧ (judge ch w s).run.runState = s.run.runState := by
  unfold judge
  (repeat' split) <;> simp

@[simp] theorem judgePrint_frame (w : WindowRecord) (s : State) :
    (judgePrint w s).shaft = s.shaft ∧ (judgePrint w s).profiles = s.profiles ∧ (judgePrint w s).sched = s.sched
      ∧ (judgePrint w s).batch = s.batch ∧ (judgePrint w s).sat = s.sat ∧ (judgePrint w s).config = s.config
      ∧ (judgePrint w s).webOk = s.webOk ∧ (judgePrint w s).time = s.time ∧ (judgePrint w s).freeCount = s.freeCount
      ∧ (judgePrint w s).pending = s.pending ∧ (judgePrint w s).run.runState = s.run.runState := by
  unfold judgePrint
  (repeat' split) <;> simp

@[simp] theorem resolvePrint_frame (w : WindowRecord) (s : State) :
    (resolvePrint w s).shaft = s.shaft ∧ (resolvePrint w s).profiles = s.profiles ∧ (resolvePrint w s).sched = s.sched
      ∧ (resolvePrint w s).batch = s.batch ∧ (resolvePrint w s).sat = s.sat ∧ (resolvePrint w s).config = s.config
      ∧ (resolvePrint w s).webOk = s.webOk ∧ (resolvePrint w s).time = s.time
      ∧ (resolvePrint w s).freeCount = s.freeCount ∧ (resolvePrint w s).pending = s.pending
      ∧ (resolvePrint w s).run.runState = s.run.runState := by
  unfold resolvePrint
  (repeat' split) <;> simp

@[simp] theorem resolveWaiting_frame (n : Serial) (s : State) :
    (resolveWaiting n s).shaft = s.shaft ∧ (resolveWaiting n s).profiles = s.profiles
      ∧ (resolveWaiting n s).sched = s.sched ∧ (resolveWaiting n s).batch = s.batch ∧ (resolveWaiting n s).sat = s.sat
      ∧ (resolveWaiting n s).config = s.config ∧ (resolveWaiting n s).webOk = s.webOk
      ∧ (resolveWaiting n s).time = s.time ∧ (resolveWaiting n s).freeCount = s.freeCount
      ∧ (resolveWaiting n s).pending = s.pending ∧ (resolveWaiting n s).run.runState = s.run.runState := by
  unfold resolveWaiting
  (repeat' split) <;> simp

@[simp] theorem resolvePatch_frame (w : WindowRecord) (s : State) :
    (resolvePatch w s).shaft = s.shaft ∧ (resolvePatch w s).profiles = s.profiles ∧ (resolvePatch w s).sched = s.sched
      ∧ (resolvePatch w s).batch = s.batch ∧ (resolvePatch w s).sat = s.sat ∧ (resolvePatch w s).config = s.config
      ∧ (resolvePatch w s).webOk = s.webOk ∧ (resolvePatch w s).time = s.time
      ∧ (resolvePatch w s).freeCount = s.freeCount ∧ (resolvePatch w s).pending = s.pending
      ∧ (resolvePatch w s).run.runState = s.run.runState := by
  unfold resolvePatch
  (repeat' split) <;> simp

@[simp] theorem closeWindow_frame (ch : RegChannel) (s : State) :
    (closeWindow ch s).shaft = s.shaft ∧ (closeWindow ch s).profiles = s.profiles ∧ (closeWindow ch s).sched = s.sched
      ∧ (closeWindow ch s).batch = s.batch ∧ (closeWindow ch s).sat = s.sat ∧ (closeWindow ch s).config = s.config
      ∧ (closeWindow ch s).webOk = s.webOk ∧ (closeWindow ch s).time = s.time
      ∧ (closeWindow ch s).freeCount = s.freeCount ∧ (closeWindow ch s).pending = s.pending
      ∧ (closeWindow ch s).run.runState = s.run.runState := by
  unfold closeWindow
  split
  · simp
  · cases ch <;> simp

@[simp] theorem closeBatch_frame (r : CloseReason) (s : State) :
    (closeBatch r s).shaft = s.shaft ∧ (closeBatch r s).track = s.track ∧ (closeBatch r s).sched = s.sched
      ∧ (closeBatch r s).reg = s.reg ∧ (closeBatch r s).sat = s.sat ∧ (closeBatch r s).run = s.run
      ∧ (closeBatch r s).config = s.config ∧ (closeBatch r s).webOk = s.webOk ∧ (closeBatch r s).time = s.time
      ∧ (closeBatch r s).freeCount = s.freeCount ∧ (closeBatch r s).pending = s.pending := by
  simp [closeBatch]

@[simp] theorem holdBatch_frame (why : ClosePending) (s : State) :
    (holdBatch why s).shaft = s.shaft ∧ (holdBatch why s).profiles = s.profiles ∧ (holdBatch why s).track = s.track
      ∧ (holdBatch why s).sched = s.sched ∧ (holdBatch why s).reg = s.reg ∧ (holdBatch why s).sat = s.sat
      ∧ (holdBatch why s).run = s.run ∧ (holdBatch why s).config = s.config ∧ (holdBatch why s).webOk = s.webOk
      ∧ (holdBatch why s).time = s.time ∧ (holdBatch why s).freeCount = s.freeCount
      ∧ (holdBatch why s).pending = s.pending := by
  unfold holdBatch
  simp only
  split <;> simp

@[simp] theorem attemptClose_frame (why : ClosePending) (c : Serial) (s : State) :
    (attemptClose why c s).shaft = s.shaft ∧ (attemptClose why c s).reg = s.reg ∧ (attemptClose why c s).sat = s.sat
      ∧ (attemptClose why c s).run = s.run ∧ (attemptClose why c s).config = s.config
      ∧ (attemptClose why c s).webOk = s.webOk ∧ (attemptClose why c s).time = s.time
      ∧ (attemptClose why c s).freeCount = s.freeCount ∧ (attemptClose why c s).pending = s.pending := by
  unfold attemptClose
  (repeat' split) <;> simp

@[simp] theorem checkOverrun_frame (s : State) :
    (checkOverrun s).shaft = s.shaft ∧ (checkOverrun s).profiles = s.profiles ∧ (checkOverrun s).track = s.track
      ∧ (checkOverrun s).sched = s.sched ∧ (checkOverrun s).reg = s.reg ∧ (checkOverrun s).batch = s.batch
      ∧ (checkOverrun s).sat = s.sat ∧ (checkOverrun s).config = s.config ∧ (checkOverrun s).webOk = s.webOk
      ∧ (checkOverrun s).time = s.time ∧ (checkOverrun s).freeCount = s.freeCount ∧ (checkOverrun s).pending = s.pending
      ∧ (checkOverrun s).run.runState = s.run.runState := by
  unfold checkOverrun
  (repeat' split) <;> simp

@[simp] theorem countStray_frame (n : Serial) (s : State) :
    (countStray n s).shaft = s.shaft ∧ (countStray n s).profiles = s.profiles ∧ (countStray n s).sched = s.sched
      ∧ (countStray n s).reg = s.reg ∧ (countStray n s).sat = s.sat ∧ (countStray n s).run = s.run
      ∧ (countStray n s).config = s.config ∧ (countStray n s).ports = s.ports ∧ (countStray n s).webOk = s.webOk
      ∧ (countStray n s).time = s.time ∧ (countStray n s).freeCount = s.freeCount ∧ (countStray n s).pending = s.pending := by
  simp [countStray]

@[simp] theorem countGoodBlank_frame (n : Serial) (slot : Fin 4) (c : Serial) (s : State) :
    (countGoodBlank n slot c s).shaft = s.shaft ∧ (countGoodBlank n slot c s).reg = s.reg
      ∧ (countGoodBlank n slot c s).sat = s.sat ∧ (countGoodBlank n slot c s).run = s.run
      ∧ (countGoodBlank n slot c s).config = s.config ∧ (countGoodBlank n slot c s).webOk = s.webOk
      ∧ (countGoodBlank n slot c s).time = s.time ∧ (countGoodBlank n slot c s).freeCount = s.freeCount
      ∧ (countGoodBlank n slot c s).pending = s.pending := by
  unfold countGoodBlank
  simp only
  split <;> simp

@[simp] theorem attemptPending_frame (c : Serial) (s : State) :
    (attemptPending c s).shaft = s.shaft ∧ (attemptPending c s).reg = s.reg ∧ (attemptPending c s).sat = s.sat
      ∧ (attemptPending c s).run = s.run ∧ (attemptPending c s).config = s.config ∧ (attemptPending c s).webOk = s.webOk
      ∧ (attemptPending c s).time = s.time ∧ (attemptPending c s).freeCount = s.freeCount
      ∧ (attemptPending c s).pending = s.pending := by
  unfold attemptPending
  (repeat' split) <;> simp

@[simp] theorem attemptOrderChange_frame (slot : Fin 4) (c : Serial) (s : State) :
    (attemptOrderChange slot c s).shaft = s.shaft ∧ (attemptOrderChange slot c s).reg = s.reg
      ∧ (attemptOrderChange slot c s).sat = s.sat ∧ (attemptOrderChange slot c s).run = s.run
      ∧ (attemptOrderChange slot c s).config = s.config ∧ (attemptOrderChange slot c s).webOk = s.webOk
      ∧ (attemptOrderChange slot c s).time = s.time ∧ (attemptOrderChange slot c s).freeCount = s.freeCount
      ∧ (attemptOrderChange slot c s).pending = s.pending := by
  unfold attemptOrderChange
  (repeat' split) <;> simp

@[simp] theorem countPassed_frame (n : Serial) (slot : Fin 4) (c : Serial) (s : State) :
    (countPassed n slot c s).shaft = s.shaft ∧ (countPassed n slot c s).reg = s.reg
      ∧ (countPassed n slot c s).sat = s.sat ∧ (countPassed n slot c s).config = s.config
      ∧ (countPassed n slot c s).webOk = s.webOk ∧ (countPassed n slot c s).time = s.time
      ∧ (countPassed n slot c s).freeCount = s.freeCount ∧ (countPassed n slot c s).pending = s.pending
      ∧ (countPassed n slot c s).run.runState = s.run.runState := by
  unfold countPassed
  simp only
  split <;> simp

@[simp] theorem countBlank_frame (n c : Serial) (s : State) :
    (countBlank n c s).shaft = s.shaft ∧ (countBlank n c s).reg = s.reg ∧ (countBlank n c s).sat = s.sat
      ∧ (countBlank n c s).config = s.config ∧ (countBlank n c s).webOk = s.webOk ∧ (countBlank n c s).time = s.time
      ∧ (countBlank n c s).freeCount = s.freeCount ∧ (countBlank n c s).pending = s.pending
      ∧ (countBlank n c s).run.runState = s.run.runState := by
  unfold countBlank
  (repeat' split) <;> simp

@[simp] theorem countReject_frame (s : State) :
    (countReject s).shaft = s.shaft ∧ (countReject s).profiles = s.profiles ∧ (countReject s).track = s.track
      ∧ (countReject s).sched = s.sched ∧ (countReject s).reg = s.reg ∧ (countReject s).sat = s.sat
      ∧ (countReject s).run = s.run ∧ (countReject s).config = s.config ∧ (countReject s).ports = s.ports
      ∧ (countReject s).webOk = s.webOk ∧ (countReject s).time = s.time ∧ (countReject s).freeCount = s.freeCount
      ∧ (countReject s).pending = s.pending := by
  simp [countReject]

@[simp] theorem recordOutcome_frame (n : Serial) (d : DefectSet) (o : GateOutcome) (s : State) :
    (recordOutcome n d o s).shaft = s.shaft ∧ (recordOutcome n d o s).profiles = s.profiles
      ∧ (recordOutcome n d o s).sched = s.sched ∧ (recordOutcome n d o s).reg = s.reg
      ∧ (recordOutcome n d o s).sat = s.sat ∧ (recordOutcome n d o s).run = s.run
      ∧ (recordOutcome n d o s).config = s.config ∧ (recordOutcome n d o s).ports = s.ports
      ∧ (recordOutcome n d o s).webOk = s.webOk ∧ (recordOutcome n d o s).time = s.time
      ∧ (recordOutcome n d o s).freeCount = s.freeCount ∧ (recordOutcome n d o s).pending = s.pending := by
  unfold recordOutcome
  simp only
  split <;> simp

@[simp] theorem setGateLevel_frame (b : Bool) (s : State) :
    (setGateLevel b s).shaft = s.shaft ∧ (setGateLevel b s).profiles = s.profiles ∧ (setGateLevel b s).track = s.track
      ∧ (setGateLevel b s).reg = s.reg ∧ (setGateLevel b s).batch = s.batch ∧ (setGateLevel b s).sat = s.sat
      ∧ (setGateLevel b s).run = s.run ∧ (setGateLevel b s).config = s.config ∧ (setGateLevel b s).ports = s.ports
      ∧ (setGateLevel b s).webOk = s.webOk ∧ (setGateLevel b s).time = s.time
      ∧ (setGateLevel b s).freeCount = s.freeCount ∧ (setGateLevel b s).pending = s.pending := by
  simp [setGateLevel]

@[simp] theorem decideGate_frame (n : Serial) (s : State) :
    (decideGate n s).shaft = s.shaft ∧ (decideGate n s).profiles = s.profiles ∧ (decideGate n s).reg = s.reg
      ∧ (decideGate n s).sat = s.sat ∧ (decideGate n s).run = s.run ∧ (decideGate n s).config = s.config
      ∧ (decideGate n s).ports = s.ports ∧ (decideGate n s).webOk = s.webOk ∧ (decideGate n s).time = s.time
      ∧ (decideGate n s).freeCount = s.freeCount ∧ (decideGate n s).pending = s.pending := by
  unfold decideGate
  (repeat' split) <;> simp

@[simp] theorem fireWebSample_frame (n : Serial) (s : State) :
    (fireWebSample n s).shaft = s.shaft ∧ (fireWebSample n s).profiles = s.profiles
      ∧ (fireWebSample n s).sched = s.sched ∧ (fireWebSample n s).batch = s.batch ∧ (fireWebSample n s).sat = s.sat
      ∧ (fireWebSample n s).config = s.config ∧ (fireWebSample n s).webOk = s.webOk ∧ (fireWebSample n s).time = s.time
      ∧ (fireWebSample n s).freeCount = s.freeCount ∧ (fireWebSample n s).pending = s.pending
      ∧ (fireWebSample n s).run.runState = s.run.runState := by
  unfold fireWebSample
  (repeat' split) <;> simp

@[simp] theorem handKnife_frame (n : Serial) (o : KnifeOutcome) (s : State) :
    (handKnife n o s).shaft = s.shaft ∧ (handKnife n o s).profiles = s.profiles ∧ (handKnife n o s).track = s.track
      ∧ (handKnife n o s).sched = s.sched ∧ (handKnife n o s).batch = s.batch ∧ (handKnife n o s).sat = s.sat
      ∧ (handKnife n o s).run = s.run ∧ (handKnife n o s).config = s.config ∧ (handKnife n o s).ports = s.ports
      ∧ (handKnife n o s).webOk = s.webOk ∧ (handKnife n o s).time = s.time ∧ (handKnife n o s).freeCount = s.freeCount
      ∧ (handKnife n o s).pending = s.pending := by
  simp [handKnife]

@[simp] theorem fireKnife_frame (n : Serial) (s : State) :
    (fireKnife n s).shaft = s.shaft ∧ (fireKnife n s).profiles = s.profiles ∧ (fireKnife n s).batch = s.batch
      ∧ (fireKnife n s).sat = s.sat ∧ (fireKnife n s).run = s.run ∧ (fireKnife n s).config = s.config
      ∧ (fireKnife n s).ports = s.ports ∧ (fireKnife n s).webOk = s.webOk ∧ (fireKnife n s).time = s.time
      ∧ (fireKnife n s).freeCount = s.freeCount ∧ (fireKnife n s).pending = s.pending := by
  unfold fireKnife
  (repeat' split) <;> simp

@[simp] theorem fireValveOn_frame (v k : Fin 4) (x : ActionSlot) (s : State) :
    (fireValveOn v k x s).shaft = s.shaft ∧ (fireValveOn v k x s).profiles = s.profiles
      ∧ (fireValveOn v k x s).reg = s.reg ∧ (fireValveOn v k x s).batch = s.batch ∧ (fireValveOn v k x s).sat = s.sat
      ∧ (fireValveOn v k x s).run = s.run ∧ (fireValveOn v k x s).config = s.config
      ∧ (fireValveOn v k x s).ports = s.ports ∧ (fireValveOn v k x s).webOk = s.webOk
      ∧ (fireValveOn v k x s).time = s.time ∧ (fireValveOn v k x s).freeCount = s.freeCount
      ∧ (fireValveOn v k x s).pending = s.pending := by
  unfold fireValveOn
  (repeat' split) <;> simp [openSegment]

@[simp] theorem fireValveOff_frame (v k : Fin 4) (c : Serial) (s : State) :
    (fireValveOff v k c s).shaft = s.shaft ∧ (fireValveOff v k c s).profiles = s.profiles
      ∧ (fireValveOff v k c s).track = s.track ∧ (fireValveOff v k c s).reg = s.reg
      ∧ (fireValveOff v k c s).batch = s.batch ∧ (fireValveOff v k c s).sat = s.sat ∧ (fireValveOff v k c s).run = s.run
      ∧ (fireValveOff v k c s).config = s.config ∧ (fireValveOff v k c s).ports = s.ports
      ∧ (fireValveOff v k c s).webOk = s.webOk ∧ (fireValveOff v k c s).time = s.time
      ∧ (fireValveOff v k c s).freeCount = s.freeCount ∧ (fireValveOff v k c s).pending = s.pending := by
  simp [fireValveOff]

@[simp] theorem fireCamera_frame (n : Serial) (s : State) :
    (fireCamera n s).shaft = s.shaft ∧ (fireCamera n s).profiles = s.profiles ∧ (fireCamera n s).reg = s.reg
      ∧ (fireCamera n s).batch = s.batch ∧ (fireCamera n s).sat = s.sat ∧ (fireCamera n s).run = s.run
      ∧ (fireCamera n s).config = s.config ∧ (fireCamera n s).webOk = s.webOk ∧ (fireCamera n s).time = s.time
      ∧ (fireCamera n s).freeCount = s.freeCount ∧ (fireCamera n s).pending = s.pending := by
  unfold fireCamera
  (repeat' split) <;> simp

/-- A firing never touches the shaft counter, the satellite poller, the configuration or the time base. -/
@[simp] theorem fireAct_frame (pt : TimedPoint) (x : ActionSlot) (s : State) :
    (fireAct pt x s).shaft = s.shaft ∧ (fireAct pt x s).sat = s.sat ∧ (fireAct pt x s).config = s.config
      ∧ (fireAct pt x s).webOk = s.webOk ∧ (fireAct pt x s).time = s.time ∧ (fireAct pt x s).freeCount = s.freeCount
      ∧ (fireAct pt x s).pending = s.pending ∧ (fireAct pt x s).run.runState = s.run.runState := by
  unfold fireAct
  split <;> simp

@[simp] theorem advanceSlot_frame (pt : TimedPoint) (x : ActionSlot) (s : State) :
    (advanceSlot pt x s).shaft = s.shaft ∧ (advanceSlot pt x s).profiles = s.profiles ∧ (advanceSlot pt x s).reg = s.reg
      ∧ (advanceSlot pt x s).batch = s.batch ∧ (advanceSlot pt x s).sat = s.sat ∧ (advanceSlot pt x s).run = s.run
      ∧ (advanceSlot pt x s).config = s.config ∧ (advanceSlot pt x s).ports = s.ports
      ∧ (advanceSlot pt x s).webOk = s.webOk ∧ (advanceSlot pt x s).time = s.time
      ∧ (advanceSlot pt x s).freeCount = s.freeCount ∧ (advanceSlot pt x s).pending = s.pending := by
  unfold advanceSlot
  split <;> simp

@[simp] theorem fireOnce_frame (pt : TimedPoint) (s : State) :
    (fireOnce pt s).shaft = s.shaft ∧ (fireOnce pt s).sat = s.sat ∧ (fireOnce pt s).config = s.config
      ∧ (fireOnce pt s).webOk = s.webOk ∧ (fireOnce pt s).time = s.time ∧ (fireOnce pt s).freeCount = s.freeCount
      ∧ (fireOnce pt s).pending = s.pending ∧ (fireOnce pt s).run.runState = s.run.runState := by
  unfold fireOnce
  simp only
  split <;> simp

@[simp] theorem addRecord_frame (slot : Fin 4) (s : State) :
    (addRecord slot s).shaft = s.shaft ∧ (addRecord slot s).profiles = s.profiles ∧ (addRecord slot s).sched = s.sched
      ∧ (addRecord slot s).reg = s.reg ∧ (addRecord slot s).batch = s.batch ∧ (addRecord slot s).sat = s.sat
      ∧ (addRecord slot s).run = s.run ∧ (addRecord slot s).config = s.config ∧ (addRecord slot s).ports = s.ports
      ∧ (addRecord slot s).webOk = s.webOk ∧ (addRecord slot s).time = s.time
      ∧ (addRecord slot s).freeCount = s.freeCount ∧ (addRecord slot s).pending = s.pending := by
  simp [addRecord]

@[simp] theorem removePast_frame (n : Serial) (s : State) :
    (removePast n s).shaft = s.shaft ∧ (removePast n s).sched = s.sched ∧ (removePast n s).reg = s.reg
      ∧ (removePast n s).batch = s.batch ∧ (removePast n s).sat = s.sat ∧ (removePast n s).run = s.run
      ∧ (removePast n s).config = s.config ∧ (removePast n s).webOk = s.webOk ∧ (removePast n s).time = s.time
      ∧ (removePast n s).freeCount = s.freeCount ∧ (removePast n s).pending = s.pending := by
  unfold removePast
  simp only
  split <;> simp

@[simp] theorem createBlank_frame (s : State) :
    (createBlank s).shaft = s.shaft ∧ (createBlank s).reg = s.reg ∧ (createBlank s).batch = s.batch
      ∧ (createBlank s).sat = s.sat ∧ (createBlank s).run = s.run ∧ (createBlank s).config = s.config
      ∧ (createBlank s).webOk = s.webOk ∧ (createBlank s).time = s.time ∧ (createBlank s).freeCount = s.freeCount
      ∧ (createBlank s).pending = s.pending := by
  unfold createBlank
  simp only
  split <;> simp

@[simp] theorem takePassed_frame (x : Passed) (s : State) :
    (takePassed x s).shaft = s.shaft ∧ (takePassed x s).sat = s.sat ∧ (takePassed x s).config = s.config
      ∧ (takePassed x s).webOk = s.webOk ∧ (takePassed x s).time = s.time ∧ (takePassed x s).pending = s.pending
      ∧ (takePassed x s).run.runState = s.run.runState := by
  unfold takePassed
  split
  · simp
  · simp
  · split <;> simp

/-- What one movement or tick takes (R70) leaves the shaft counter, the poller, the configuration and the time base alone. -/
@[simp] theorem settle_frame (k : Nat) (s : State) :
    (settle k s).shaft = s.shaft ∧ (settle k s).sat = s.sat ∧ (settle k s).config = s.config
      ∧ (settle k s).webOk = s.webOk ∧ (settle k s).time = s.time ∧ (settle k s).pending = s.pending
      ∧ (settle k s).run.runState = s.run.runState := by
  induction k generalizing s with
  | zero => simp [settle]
  | succ k ih =>
    unfold settle
    split <;> simp [ih]

@[simp] theorem setValveOutputs_frame (s : State) :
    (setValveOutputs s).shaft = s.shaft ∧ (setValveOutputs s).profiles = s.profiles
      ∧ (setValveOutputs s).track = s.track ∧ (setValveOutputs s).reg = s.reg ∧ (setValveOutputs s).batch = s.batch
      ∧ (setValveOutputs s).sat = s.sat ∧ (setValveOutputs s).run = s.run ∧ (setValveOutputs s).config = s.config
      ∧ (setValveOutputs s).ports = s.ports ∧ (setValveOutputs s).webOk = s.webOk ∧ (setValveOutputs s).time = s.time
      ∧ (setValveOutputs s).freeCount = s.freeCount ∧ (setValveOutputs s).pending = s.pending := by
  simp [setValveOutputs]

@[simp] theorem markPassed_frame (x : Nat) (s : State) :
    (markPassed x s).shaft = s.shaft ∧ (markPassed x s).profiles = s.profiles ∧ (markPassed x s).reg = s.reg
      ∧ (markPassed x s).batch = s.batch ∧ (markPassed x s).sat = s.sat ∧ (markPassed x s).run = s.run
      ∧ (markPassed x s).config = s.config ∧ (markPassed x s).ports = s.ports ∧ (markPassed x s).webOk = s.webOk
      ∧ (markPassed x s).time = s.time ∧ (markPassed x s).freeCount = s.freeCount ∧ (markPassed x s).pending = s.pending := by
  simp [markPassed]

@[simp] theorem settleEvent_frame (s : State) :
    (settleEvent s).shaft = s.shaft ∧ (settleEvent s).sat = s.sat ∧ (settleEvent s).config = s.config
      ∧ (settleEvent s).webOk = s.webOk ∧ (settleEvent s).time = s.time ∧ (settleEvent s).pending = s.pending
      ∧ (settleEvent s).run.runState = s.run.runState := by
  simp [settleEvent]

@[simp] theorem firePoint_frame (pt : TimedPoint) (s : State) :
    (firePoint pt s).shaft = s.shaft ∧ (firePoint pt s).sat = s.sat ∧ (firePoint pt s).config = s.config
      ∧ (firePoint pt s).webOk = s.webOk ∧ (firePoint pt s).time = s.time ∧ (firePoint pt s).pending = s.pending
      ∧ (firePoint pt s).run.runState = s.run.runState := by
  unfold firePoint
  simp only
  (repeat' split) <;> simp

@[simp] theorem flushRecords_frame (s : State) :
    (flushRecords s).shaft = s.shaft ∧ (flushRecords s).sched = s.sched ∧ (flushRecords s).reg = s.reg
      ∧ (flushRecords s).batch = s.batch ∧ (flushRecords s).sat = s.sat ∧ (flushRecords s).run = s.run
      ∧ (flushRecords s).config = s.config ∧ (flushRecords s).webOk = s.webOk ∧ (flushRecords s).time = s.time
      ∧ (flushRecords s).freeCount = s.freeCount ∧ (flushRecords s).pending = s.pending := by
  unfold flushRecords
  (repeat' split) <;> simp

@[simp] theorem markFault_frame (s : State) :
    (markFault s).shaft = s.shaft ∧ (markFault s).profiles = s.profiles ∧ (markFault s).sched = s.sched
      ∧ (markFault s).reg = s.reg ∧ (markFault s).batch = s.batch ∧ (markFault s).sat = s.sat
      ∧ (markFault s).run = s.run ∧ (markFault s).config = s.config ∧ (markFault s).ports = s.ports
      ∧ (markFault s).webOk = s.webOk ∧ (markFault s).time = s.time ∧ (markFault s).freeCount = s.freeCount
      ∧ (markFault s).pending = s.pending := by
  simp [markFault]

@[simp] theorem spliceNewest_frame (s : State) :
    (spliceNewest s).shaft = s.shaft ∧ (spliceNewest s).sched = s.sched ∧ (spliceNewest s).reg = s.reg
      ∧ (spliceNewest s).batch = s.batch ∧ (spliceNewest s).sat = s.sat ∧ (spliceNewest s).run = s.run
      ∧ (spliceNewest s).config = s.config ∧ (spliceNewest s).ports = s.ports ∧ (spliceNewest s).webOk = s.webOk
      ∧ (spliceNewest s).time = s.time ∧ (spliceNewest s).freeCount = s.freeCount ∧ (spliceNewest s).pending = s.pending := by
  unfold spliceNewest
  (repeat' split) <;> simp

@[simp] theorem spliceEdge_frame (s : State) :
    (spliceEdge s).shaft = s.shaft ∧ (spliceEdge s).sched = s.sched ∧ (spliceEdge s).reg = s.reg
      ∧ (spliceEdge s).batch = s.batch ∧ (spliceEdge s).sat = s.sat ∧ (spliceEdge s).run = s.run
      ∧ (spliceEdge s).config = s.config ∧ (spliceEdge s).ports = s.ports ∧ (spliceEdge s).webOk = s.webOk
      ∧ (spliceEdge s).time = s.time ∧ (spliceEdge s).freeCount = s.freeCount ∧ (spliceEdge s).pending = s.pending := by
  unfold spliceEdge
  (repeat' split) <;> simp

@[simp] theorem leaveLive_frame (s : State) :
    (leaveLive s).shaft = s.shaft ∧ (leaveLive s).profiles = s.profiles ∧ (leaveLive s).track = s.track
      ∧ (leaveLive s).reg = s.reg ∧ (leaveLive s).batch = s.batch ∧ (leaveLive s).sat = s.sat
      ∧ (leaveLive s).run = s.run ∧ (leaveLive s).config = s.config ∧ (leaveLive s).ports = s.ports
      ∧ (leaveLive s).webOk = s.webOk ∧ (leaveLive s).time = s.time ∧ (leaveLive s).freeCount = s.freeCount
      ∧ (leaveLive s).pending = s.pending := by
  simp [leaveLive]

@[simp] theorem encoderFault_frame (k : FaultKind) (d : Int) (s : State) :
    (encoderFault k d s).profiles = s.profiles ∧ (encoderFault k d s).batch = s.batch ∧ (encoderFault k d s).sat = s.sat
      ∧ (encoderFault k d s).config = s.config ∧ (encoderFault k d s).webOk = s.webOk
      ∧ (encoderFault k d s).time = s.time ∧ (encoderFault k d s).freeCount = s.freeCount
      ∧ (encoderFault k d s).pending = s.pending := by
  unfold encoderFault
  simp only
  split <;> simp

@[simp] theorem handHold_frame (c : SatConfig) (after : SatState) (s : State) :
    (handHold c after s).shaft = s.shaft ∧ (handHold c after s).profiles = s.profiles
      ∧ (handHold c after s).track = s.track ∧ (handHold c after s).sched = s.sched ∧ (handHold c after s).reg = s.reg
      ∧ (handHold c after s).batch = s.batch ∧ (handHold c after s).sat = s.sat ∧ (handHold c after s).config = s.config
      ∧ (handHold c after s).webOk = s.webOk ∧ (handHold c after s).time = s.time
      ∧ (handHold c after s).freeCount = s.freeCount ∧ (handHold c after s).pending = s.pending
      ∧ (handHold c after s).run.runState = s.run.runState := by
  unfold handHold
  (repeat' split) <;> simp

@[simp] theorem changeEntry_frame (n : Fin 8) (e : SampleEntry) (s : State) :
    (changeEntry n e s).shaft = s.shaft ∧ (changeEntry n e s).profiles = s.profiles
      ∧ (changeEntry n e s).track = s.track ∧ (changeEntry n e s).sched = s.sched ∧ (changeEntry n e s).reg = s.reg
      ∧ (changeEntry n e s).batch = s.batch ∧ (changeEntry n e s).config = s.config
      ∧ (changeEntry n e s).webOk = s.webOk ∧ (changeEntry n e s).time = s.time
      ∧ (changeEntry n e s).freeCount = s.freeCount ∧ (changeEntry n e s).pending = s.pending
      ∧ (changeEntry n e s).run.runState = s.run.runState := by
  unfold changeEntry
  simp only
  split <;> simp

@[simp] theorem pollFrom_frame (k : Nat) (s : State) :
    (pollFrom k s).shaft = s.shaft ∧ (pollFrom k s).profiles = s.profiles ∧ (pollFrom k s).track = s.track
      ∧ (pollFrom k s).sched = s.sched ∧ (pollFrom k s).reg = s.reg ∧ (pollFrom k s).batch = s.batch
      ∧ (pollFrom k s).run = s.run ∧ (pollFrom k s).config = s.config ∧ (pollFrom k s).ports = s.ports
      ∧ (pollFrom k s).webOk = s.webOk ∧ (pollFrom k s).time = s.time ∧ (pollFrom k s).freeCount = s.freeCount
      ∧ (pollFrom k s).pending = s.pending := by
  unfold pollFrom
  (repeat' split) <;> simp

@[simp] theorem endTransaction_frame (t : Transaction) (bus : List BusItem) (s : State) :
    (endTransaction t bus s).shaft = s.shaft ∧ (endTransaction t bus s).profiles = s.profiles
      ∧ (endTransaction t bus s).track = s.track ∧ (endTransaction t bus s).sched = s.sched ∧ (endTransaction t bus s).reg = s.reg
      ∧ (endTransaction t bus s).batch = s.batch ∧ (endTransaction t bus s).run = s.run ∧ (endTransaction t bus s).config = s.config
      ∧ (endTransaction t bus s).ports = s.ports ∧ (endTransaction t bus s).webOk = s.webOk ∧ (endTransaction t bus s).time = s.time
      ∧ (endTransaction t bus s).freeCount = s.freeCount ∧ (endTransaction t bus s).pending = s.pending := by
  unfold endTransaction
  simp only
  (repeat' split) <;> simp

@[simp] theorem answerTransaction_frame (hi lo : Byte) (s : State) :
    (answerTransaction hi lo s).shaft = s.shaft ∧ (answerTransaction hi lo s).profiles = s.profiles
      ∧ (answerTransaction hi lo s).track = s.track ∧ (answerTransaction hi lo s).sched = s.sched
      ∧ (answerTransaction hi lo s).reg = s.reg ∧ (answerTransaction hi lo s).batch = s.batch
      ∧ (answerTransaction hi lo s).config = s.config ∧ (answerTransaction hi lo s).webOk = s.webOk
      ∧ (answerTransaction hi lo s).time = s.time ∧ (answerTransaction hi lo s).freeCount = s.freeCount
      ∧ (answerTransaction hi lo s).pending = s.pending ∧ (answerTransaction hi lo s).run.runState = s.run.runState := by
  unfold answerTransaction
  (repeat' split) <;> simp

@[simp] theorem failTransaction_frame (t : Transaction) (bus : List BusItem) (s : State) :
    (failTransaction t bus s).shaft = s.shaft ∧ (failTransaction t bus s).profiles = s.profiles
      ∧ (failTransaction t bus s).track = s.track ∧ (failTransaction t bus s).sched = s.sched ∧ (failTransaction t bus s).reg = s.reg
      ∧ (failTransaction t bus s).batch = s.batch ∧ (failTransaction t bus s).config = s.config ∧ (failTransaction t bus s).webOk = s.webOk
      ∧ (failTransaction t bus s).time = s.time ∧ (failTransaction t bus s).freeCount = s.freeCount ∧ (failTransaction t bus s).pending = s.pending
      ∧ (failTransaction t bus s).run.runState = s.run.runState := by
  unfold failTransaction
  split <;> simp

@[simp] theorem refuseTransaction_frame (byte : NackByte) (s : State) :
    (refuseTransaction byte s).shaft = s.shaft ∧ (refuseTransaction byte s).profiles = s.profiles
      ∧ (refuseTransaction byte s).track = s.track ∧ (refuseTransaction byte s).sched = s.sched ∧ (refuseTransaction byte s).reg = s.reg
      ∧ (refuseTransaction byte s).batch = s.batch ∧ (refuseTransaction byte s).config = s.config ∧ (refuseTransaction byte s).webOk = s.webOk
      ∧ (refuseTransaction byte s).time = s.time ∧ (refuseTransaction byte s).freeCount = s.freeCount ∧ (refuseTransaction byte s).pending = s.pending
      ∧ (refuseTransaction byte s).run.runState = s.run.runState := by
  unfold refuseTransaction
  (repeat' split) <;> simp

@[simp] theorem timeOutTransaction_frame  (s : State) :
    (timeOutTransaction s).shaft = s.shaft ∧ (timeOutTransaction s).profiles = s.profiles
      ∧ (timeOutTransaction s).track = s.track ∧ (timeOutTransaction s).sched = s.sched ∧ (timeOutTransaction s).reg = s.reg
      ∧ (timeOutTransaction s).batch = s.batch ∧ (timeOutTransaction s).config = s.config ∧ (timeOutTransaction s).webOk = s.webOk
      ∧ (timeOutTransaction s).time = s.time ∧ (timeOutTransaction s).pending = s.pending ∧ (timeOutTransaction s).run.runState = s.run.runState := by
  unfold timeOutTransaction
  (repeat' split) <;> simp

@[simp] theorem startRound_frame (s : State) :
    (startRound s).shaft = s.shaft ∧ (startRound s).profiles = s.profiles ∧ (startRound s).track = s.track
      ∧ (startRound s).sched = s.sched ∧ (startRound s).reg = s.reg ∧ (startRound s).batch = s.batch
      ∧ (startRound s).run = s.run ∧ (startRound s).config = s.config ∧ (startRound s).ports = s.ports
      ∧ (startRound s).webOk = s.webOk ∧ (startRound s).time = s.time ∧ (startRound s).freeCount = s.freeCount
      ∧ (startRound s).pending = s.pending := by
  unfold startRound
  simp only
  split <;> simp

@[simp] theorem takeTimed_frame (e : TimedEvent) (s : State) :
    (takeTimed e s).shaft = s.shaft ∧ (takeTimed e s).profiles = s.profiles ∧ (takeTimed e s).track = s.track
      ∧ (takeTimed e s).reg = s.reg ∧ (takeTimed e s).batch = s.batch ∧ (takeTimed e s).config = s.config
      ∧ (takeTimed e s).webOk = s.webOk ∧ (takeTimed e s).time = s.time
      ∧ (takeTimed e s).pending = s.pending ∧ (takeTimed e s).run.runState = s.run.runState := by
  unfold takeTimed
  (repeat' split) <;> simp

@[simp] theorem passTime_frame (t : Nat) (s : State) :
    (passTime t s).shaft = s.shaft ∧ (passTime t s).profiles = s.profiles ∧ (passTime t s).track = s.track
      ∧ (passTime t s).sched = s.sched ∧ (passTime t s).reg = s.reg ∧ (passTime t s).batch = s.batch
      ∧ (passTime t s).run = s.run ∧ (passTime t s).config = s.config ∧ (passTime t s).ports = s.ports
      ∧ (passTime t s).webOk = s.webOk ∧ (passTime t s).freeCount = s.freeCount ∧ (passTime t s).pending = s.pending := by
  simp [passTime]

@[simp] theorem advanceTime_frame (k limit : Nat) (s : State) :
    (advanceTime k limit s).shaft = s.shaft ∧ (advanceTime k limit s).profiles = s.profiles
      ∧ (advanceTime k limit s).track = s.track ∧ (advanceTime k limit s).reg = s.reg
      ∧ (advanceTime k limit s).batch = s.batch ∧ (advanceTime k limit s).config = s.config
      ∧ (advanceTime k limit s).webOk = s.webOk
      ∧ (advanceTime k limit s).pending = s.pending ∧ (advanceTime k limit s).run.runState = s.run.runState := by
  induction k generalizing s with
  | zero => simp [advanceTime]
  | succ k ih =>
    unfold advanceTime
    split <;> simp [ih]

@[simp] theorem scheduleTick_frame (b : Bool) (s : State) :
    (scheduleTick b s).shaft = s.shaft ∧ (scheduleTick b s).sat = s.sat ∧ (scheduleTick b s).config = s.config
      ∧ (scheduleTick b s).webOk = s.webOk ∧ (scheduleTick b s).time = s.time ∧ (scheduleTick b s).pending = s.pending
      ∧ (scheduleTick b s).run.runState = s.run.runState := by
  unfold scheduleTick
  (repeat' split) <;> simp

@[simp] theorem runResetBatch_frame (s : State) :
    (runResetBatch s).shaft = s.shaft ∧ (runResetBatch s).track = s.track ∧ (runResetBatch s).sched = s.sched
      ∧ (runResetBatch s).reg = s.reg ∧ (runResetBatch s).sat = s.sat ∧ (runResetBatch s).run = s.run
      ∧ (runResetBatch s).config = s.config ∧ (runResetBatch s).webOk = s.webOk ∧ (runResetBatch s).time = s.time
      ∧ (runResetBatch s).freeCount = s.freeCount ∧ (runResetBatch s).pending = s.pending := by
  unfold runResetBatch
  (repeat' split) <;> simp

@[simp] theorem endTransfer_part_frame (p : PortId) (all : List Byte) (s : State) :
    ((endTransfer p all s).part).shaft = s.shaft ∧ ((endTransfer p all s).part).profiles = s.profiles
      ∧ ((endTransfer p all s).part).track = s.track ∧ ((endTransfer p all s).part).sched = s.sched
      ∧ ((endTransfer p all s).part).reg = s.reg ∧ ((endTransfer p all s).part).batch = s.batch
      ∧ ((endTransfer p all s).part).sat = s.sat ∧ ((endTransfer p all s).part).run = s.run
      ∧ ((endTransfer p all s).part).config = s.config ∧ ((endTransfer p all s).part).webOk = s.webOk
      ∧ ((endTransfer p all s).part).time = s.time ∧ ((endTransfer p all s).part).freeCount = s.freeCount
      ∧ ((endTransfer p all s).part).pending = s.pending := by
  unfold endTransfer
  (repeat' split) <;> simp

@[simp] theorem ended_frame (p : PortId) (f : List Byte) (s : State) :
    (s.ended p f).shaft = s.shaft ∧ (s.ended p f).profiles = s.profiles ∧ (s.ended p f).track = s.track
      ∧ (s.ended p f).sched = s.sched ∧ (s.ended p f).reg = s.reg ∧ (s.ended p f).batch = s.batch
      ∧ (s.ended p f).sat = s.sat ∧ (s.ended p f).run = s.run ∧ (s.ended p f).config = s.config
      ∧ (s.ended p f).webOk = s.webOk ∧ (s.ended p f).time = s.time ∧ (s.ended p f).freeCount = s.freeCount
      ∧ (s.ended p f).pending = s.pending := by
  simp [State.ended]

@[simp] theorem respond_frame (p : PortId) (r : Response) (s : State) :
    (respond p r s).shaft = s.shaft ∧ (respond p r s).profiles = s.profiles ∧ (respond p r s).track = s.track
      ∧ (respond p r s).sched = s.sched ∧ (respond p r s).reg = s.reg ∧ (respond p r s).batch = s.batch
      ∧ (respond p r s).sat = s.sat ∧ (respond p r s).run = s.run ∧ (respond p r s).config = s.config
      ∧ (respond p r s).webOk = s.webOk ∧ (respond p r s).time = s.time ∧ (respond p r s).freeCount = s.freeCount
      ∧ (respond p r s).pending = s.pending := by
  simp [respond]

end Sys2Proof.Machine
end

