-- ==== Sys2Proof/Laws/Operations.lean ====
section
/-! SUPPORT. What each shared operation does, said once: a proof cites these in place of unfolding the operation. -/

namespace Sys2Proof.Machine

/-! ## Every command and every step has a next state -/

theorem exec_next (i : Instr) (s : State) : ∃ t : State, exec i s = .next t := by
  cases i <;> exact ⟨_, rfl⟩

/-- A step with an empty queue passes a microsecond, and one with a command executes it. -/
theorem step_cases {s t : State} (h : step s = .next t) :
    (s.pending = [] ∧ t = passMicrosecond s)
      ∨ ∃ c rest, s.pending = c :: rest ∧ exec c { s with pending := rest } = .next t := by
  unfold step at h
  cases hp : s.pending with
  | nil => rw [hp] at h; cases h; exact .inl ⟨rfl, rfl⟩
  | cons c rest => rw [hp] at h; exact .inr ⟨c, rest, rfl, h⟩

/-! ## Arithmetic of positions, clamps and counters -/

theorem offsetPosition_nat (pitch base n : Nat) : offsetPosition pitch base (n : Int) = (base + n) % modulusOf pitch := by
  unfold offsetPosition
  rw [← Int.natCast_add, ← Int.natCast_emod, Int.toNat_natCast]

theorem offsetPosition_lt {pitch : Nat} (hp : 0 < pitch) (base : Nat) (d : Int) : offsetPosition pitch base d < modulusOf pitch := by
  have hm : 0 < (modulusOf pitch : Int) := by unfold modulusOf; omega
  have h := Int.emod_lt_of_pos ((base : Int) + d) hm
  have h0 := Int.emod_nonneg ((base : Int) + d) (ne_of_gt hm)
  unfold offsetPosition
  omega

theorem clampRelative_eq {pitch : Nat} (hp : 1 ≤ pitch) (r : Int) :
    clampRelative pitch r = Max.max (-((pitch / 2 : Nat) : Int)) (Min.min ((pitch : Int) - 1) r) := by
  simp only [clampRelative, belowClamp, aboveClamp, decide_eq_true_eq]
  split
  · omega
  · split <;> omega

theorem offRelative_angle {pitch : Nat} (hp : 1 ≤ pitch) (r floor : Int) :
    (offRelative pitch r floor).angle
      = Min.min ((pitch : Int) - 1) (Max.max (Max.max (-((pitch / 2 : Nat) : Int)) r) floor) := by
  simp only [offRelative]
  rw [clampRelative_eq hp]
  simp only [belowClamp, decide_eq_true_eq]
  split <;> split <;> omega

theorem clampTo_eq (m : Nat) (v : Int) : clampTo m v = Max.max (-(m : Int)) (Min.min (m : Int) v) := by
  unfold clampTo
  split
  · omega
  · split <;> omega

theorem clampTo_natAbs_le (m : Nat) (v : Int) : (clampTo m v).natAbs ≤ m := by
  rw [clampTo_eq]
  omega

theorem countUpTo_eq_min (limit n : Nat) : countUpTo limit n = Nat.min limit (n + 1) := by
  unfold countUpTo
  split
  · exact (Nat.min_eq_right (by omega)).symm
  · exact (Nat.min_eq_left (by omega)).symm

/-- The serials before `n + 1` are those before `n`, and `n`. -/
theorem serialsBefore_succ (n : Serial) (len : Nat) : serialsBefore (n + 1) (len + 1) = serialsBefore n len ++ [n] := by
  unfold serialsBefore
  rw [List.range_succ, List.map_append]
  congr 1
  · apply List.map_congr_left
    intro i hi
    have hl : i < len := List.mem_range.mp hi
    rw [show len + 1 - i = (len - i) + 1 by omega, BitVec.ofNat_add]
    grind
  · simp

/-! ## Shaft -/

/-- R1: a sample that differs in one input is a count, forward to the right in R1's cycle under NORMAL. -/
theorem sampleKind_count (sense : EncoderSense) (qa qb a b : Bool)
    (h : ((qa, qb), (a, b)) ∈ encoderSteps ∨ ((a, b), (qa, qb)) ∈ encoderSteps) :
    sampleKind sense qa qb a b
      = if (decide (((qa, qb), (a, b)) ∈ encoderSteps) == (sense == .normal)) then .forward else .reverse := by
  revert h qa qb a b
  cases sense <;> decide

theorem encoderFault_port (kind : FaultKind) (detail : Int) (s : State) (p : PortId) :
    (encoderFault kind detail s).port p = s.portAfter p s.faultNotices := by
  unfold encoderFault
  cases h : s.run.causes.encoder <;> cases p <;>
    simp [State.portAfter, State.faultNotices, h, postRunState, postHalt, post, State.setRun, State.port, Ports.get,
      CauseSet.insert, CauseSet.minus, permitOf, CauseSet.isEmpty, leaveLive, markFault, CauseSet.empty, List.foldl]

/-- Everything an encoder fault does. -/
theorem encoderFault_faults (kind : FaultKind) (detail : Int) (s : State) :
    s.FaultedTo (encoderFault kind detail s) kind detail := by
  have hrun : (encoderFault kind detail s).run = ⟨.homing, { s.run.causes with encoder := true }, false⟩ := by
    unfold encoderFault
    dsimp only
    split <;> simp [postRunState, post, postHalt, State.setRun, CauseSet.insert, permitOf, CauseSet.isEmpty]
  have htrack : (encoderFault kind detail s).track = (markFault s).track := by
    unfold encoderFault; dsimp only; split <;> rfl
  have hsched : (encoderFault kind detail s).sched = (leaveLive s).sched := by
    unfold encoderFault; dsimp only; split <;> rfl
  have hreg : (encoderFault kind detail s).reg = s.reg.abandon := by
    unfold encoderFault; dsimp only; split <;> rfl
  refine ⟨?_, hrun, ?_, ?_, ?_, ?_, ?_, ?_, ?_, ?_, ?_, ?_, ?_, ?_, encoderFault_port kind detail s, by simp, by simp, by simp,
    by simp, by simp, by simp, by simp⟩
  · unfold encoderFault; dsimp only; split <;> rfl
  · rw [htrack]; rfl
  · intro pt; simp only [State.slot, hsched, Sched.slot, leaveLive, mapVector_getElem]
  · intro v; rw [hsched]; simp [leaveLive]
  · intro ch; rw [hsched]; cases ch <;> rfl
  · rw [hsched]; rfl
  · rw [hsched]; rfl
  · rw [hsched]; rfl
  · rw [hsched]; rfl
  · rw [hsched]; rfl
  · intro ch; simp only [State.channel, hreg]; cases ch <;> rfl
  · rw [hreg]; rfl
  · rw [hreg]; rfl

/-! ## Notices and halt causes -/

/-- A posted notice keeps what R196 and R197 say of a port. -/
theorem queueNotice_notices_in_order (x : Port) (n : Notice) (h : x.NoticesInOrder) : (x.queueNotice n).NoticesInOrder := by
  obtain ⟨h1, h2, h3⟩ := h
  have hcount : countUpTo 65535 x.lost ≤ 65535 := by rw [countUpTo_eq_min]; exact Nat.min_le_left _ _
  have hlimit : noticeQueueLimit = 32 := rfl
  unfold Port.queueNotice
  by_cases hs : x.subscription.holds n = true
  · by_cases hl : x.lost = 0
    · by_cases hq : x.notices.length < noticeQueueLimit
      · rw [if_pos hs, if_pos hl, if_pos hq]
        exact ⟨by simp [Port.withNotices]; omega, h2, by simp [Port.withNotices]⟩
      · rw [if_pos hs, if_pos hl, if_neg hq]
        exact ⟨h1, hcount, h3⟩
    · by_cases hq : x.notices.length + 2 ≤ noticeQueueLimit
      · rw [if_pos hs, if_neg hl, if_pos hq]
        exact ⟨by simp [Port.withNotices]; omega, by simp, by simp [Port.withNotices]⟩
      · rw [if_pos hs, if_neg hl, if_neg hq]
        exact ⟨h1, hcount, h3⟩
  · rw [if_neg hs]
    exact ⟨h1, h2, h3⟩

theorem handCause_cases (c : HaltCause) (s : State) :
    (s.run.causes.has c = true ∧ handCause c s = s)
      ∨ (s.run.causes.has c = false
          ∧ handCause c s = postHalt s.run.causes (s.setRun s.run.runState (s.run.causes.insert c))) := by
  unfold handCause
  cases h : s.run.causes.has c
  · exact .inr ⟨rfl, rfl⟩
  · exact .inl ⟨rfl, rfl⟩

/-! ## Retirement -/

theorem retireCheck_cases (s : State) :
    retireCheck s = s
      ∨ ∃ i, s.profiles.retiring = some i ∧ s.references i = false
          ∧ retireCheck s
            = post (.profileRetired i (s.profiles.orderOf i)) { s with profiles := s.profiles.setState i .ready } := by
  unfold retireCheck
  cases h : s.profiles.retiring with
  | none => exact .inl rfl
  | some i =>
    cases hr : s.references i
    · exact .inr ⟨i, rfl, hr, by simp [hr]⟩
    · exact .inl (by simp [hr])

theorem retireCheck_of_none {s : State} (h : s.profiles.retiring = none) : retireCheck s = s := by
  simp [retireCheck, h]

/-! ## Slots: arming and firing -/

@[simp] theorem aimed_phase (s : State) (pt : TimedPoint) (y : Nat) : (s.aimed pt y).phase = (s.slot pt).phase := rfl
@[simp] theorem aimed_cycle (s : State) (pt : TimedPoint) (y : Nat) : (s.aimed pt y).cycle = (s.slot pt).cycle := rfl
@[simp] theorem aimed_serial (s : State) (pt : TimedPoint) (y : Nat) : (s.aimed pt y).serial = (s.slot pt).serial := rfl
@[simp] theorem aimed_angle (s : State) (pt : TimedPoint) (y : Nat) : (s.aimed pt y).angle = (s.slot pt).angle := rfl
@[simp] theorem aimed_onAngle (s : State) (pt : TimedPoint) (y : Nat) : (s.aimed pt y).onAngle = (s.slot pt).onAngle := rfl
@[simp] theorem aimed_clampNoted (s : State) (pt : TimedPoint) (y : Nat) : (s.aimed pt y).clampNoted = (s.slot pt).clampNoted := rfl
@[simp] theorem aimed_target (s : State) (pt : TimedPoint) (y : Nat) : (s.aimed pt y).target = y := rfl
@[simp] theorem aimed_passed (s : State) (pt : TimedPoint) (y : Nat) : (s.aimed pt y).passed = atOrBeyond s.pitch s.shaft.position y := rfl

/-- What waits for the next cycle (R67). -/
@[simp] theorem waits_eq (x : ActionSlot) :
    x.waits = { x with phase := .waiting, cycle := x.cycle + 1, serial := x.serial + 1, passed := false } := rfl

@[simp] theorem setSlot_setSlot (s : State) (pt : TimedPoint) (a b : ActionSlot) :
    (s.setSlot pt a).setSlot pt b = s.setSlot pt b := by
  simp [State.setSlot, Sched.setSlot]

@[simp] theorem addDefect_slot (n : Serial) (d : Defect) (s : State) (pt : TimedPoint) : (addDefect n d s).slot pt = s.slot pt := rfl

/-- Everything arming a slot does (R64). -/
theorem armSlot_eq (pt : TimedPoint) (c : Serial) (u : State) : armSlot pt c u = u.armedFor pt c := rfl

/-- Everything arming a slot for the cycle after `c` does (R64, R66). -/
theorem armSlot_rearms (pt : TimedPoint) (c : Serial) (u : State) : u.RearmedTo (armSlot pt (c + 1) u) pt c := rfl

/-- An uncompensated point meets no clamp, so that arming it adds no defect (R60, R61). -/
theorem armSlot_uncompensated (pt : TimedPoint) (c : Serial) (u : State) (h : leadOf u.config pt = none) :
    (armSlot pt c u).track = u.track := by
  unfold armSlot retarget
  simp only [setSlot_slot_self]
  split
  · simp
  · simp only [relativeAngle, setSlot_config, h]
    simp

theorem firePoint_of_firesOnce {s : State} {pt : TimedPoint} (h : s.FiresOnce pt) : firePoint pt s = fireOnce pt s := by
  simp [firePoint, h.1, h.2]

/-- A slot that is not void and fires once does its act and takes its next state. -/
theorem fireFilled_of_firesOnce {s : State} {pt : TimedPoint} (h : s.FiresOnce pt) (hv : (s.slot pt).angle.isSome = true) :
    fireFilled pt s = advanceSlot pt (s.slot pt) (fireAct pt (s.slot pt) s) := by
  have hn : (s.slot pt).angle.isNone = false := by cases h' : (s.slot pt).angle <;> simp_all
  simp [fireFilled, State.isVoid, hn, firePoint_of_firesOnce h, fireOnce]

theorem fireFilled_of_not_due {s : State} {pt : TimedPoint} (h : s.due pt = false) : fireFilled pt s = s := by
  unfold fireFilled firePoint
  simp [h]

/-- The valve outputs show their open segments (R82). -/
theorem setValveOutputs_gum (s : State) (v : Fin 4) :
    (setValveOutputs s).sched.outputs.gum[v.val]
      = (s.config.channels.valves[v.val].enable && !s.sched.segments[v.val].isEmpty) := by
  match v with
  | 0 => simp [setValveOutputs, valveLevel]
  | 1 => simp [setValveOutputs, valveLevel]
  | 2 => simp [setValveOutputs, valveLevel]
  | 3 => simp [setValveOutputs, valveLevel]

/-! ## Posting a notice (R195, R196) -/

theorem maskOf_testBit (xs : List Bool) (k : Nat) : (maskOf xs).testBit k = xs.getD k false := by
  induction xs generalizing k with
  | nil => simp [maskOf]
  | cons b bs ih =>
    cases k with
    | zero => cases b <;> simp [maskOf, Nat.testBit_zero]
    | succ k =>
      rw [List.getD_cons_succ, ← ih k]
      cases b
      · simp [maskOf, Nat.testBit_succ]
      · simp only [maskOf, if_true, Nat.testBit_succ]
        congr 1
        omega

/-- The bit of a notice's kind code says whether the subscription holds the kind (R195, R198). -/
theorem subscribes_eq (p : Port) (n : Notice) : p.subscribes n = p.subscription.holds n := by
  unfold Port.subscribes NoticeKinds.mask
  rw [maskOf_testBit]
  cases n <;> rfl

/-- Everything a port can do with a posted notice (R195, R196). -/
theorem queueNotice_eq (p : Port) (n : Notice) :
    p.queueNotice n
      = if p.subscribes n then
          if p.lost = 0 ∧ p.notices.length < 32 then { p with notices := p.notices ++ [n], attention := true }
          else if 1 ≤ p.lost ∧ p.notices.length ≤ 30 then
            { p with notices := p.notices ++ [.gap p.lost, n], attention := true, lost := 0 }
          else { p with lost := Nat.min 65535 (p.lost + 1) }
        else p := by
  have hc : countUpTo 65535 p.lost = Nat.min 65535 (p.lost + 1) := by
    have hm : Nat.min 65535 (p.lost + 1) = min 65535 (p.lost + 1) := rfl
    unfold countUpTo
    split <;> omega
  unfold Port.queueNotice noticeQueueLimit
  rw [subscribes_eq, hc]
  have hne : ∀ (y : Notice) (ys : List Notice), (p.notices ++ y :: ys).isEmpty = false := by
    intro y ys
    cases p.notices <;> rfl
  by_cases hl : p.lost = 0
  · simp [hl, hne, Port.withNotices]
  · have h1 : 1 ≤ p.lost := by omega
    simp [hl, h1, hne, Port.withNotices]

/-! ## Inductions over what one event takes -/

/-- What the creation, every firing and the use of a free value keep, the taking of all that stands passed keeps. -/
theorem settle_keeps (Inv : State → Prop) (hc : ∀ s, Inv s → Inv (createBlank s))
    (hf : ∀ pt s, Inv s → Inv (fireOnce pt s))
    (hn : ∀ s : State, Inv s → Inv { s with freeCount := s.freeCount + 1 }) (k : Nat) (s : State) (hs : Inv s) :
    Inv (settle k s) := by
  induction k generalizing s with
  | zero => exact hs
  | succ k ih =>
    simp only [settle]
    cases hx : s.nextPassed with
    | none => exact hs
    | some x =>
      apply ih
      cases x with
      | creation => exact hc s hs
      | point pt => exact hf pt s hs
      | tie pts =>
        simp only [takePassed]
        split
        · exact hs
        · exact hf _ _ (hn s hs)

/-- What every timed event and the passing of time keep, the time base keeps. -/
theorem advanceTime_keeps (Inv : State → Prop) (ht : ∀ event s, Inv s → Inv (takeTimed event s))
    (hp : ∀ time s, Inv s → Inv (passTime time s)) (k limit : Nat) (s : State) (hs : Inv s) : Inv (advanceTime k limit s) := by
  induction k generalizing s with
  | zero => exact hp limit s hs
  | succ k ih =>
    simp only [advanceTime]
    split
    · exact hp limit s hs
    · exact ih _ (ht _ _ (hp _ s hs))

/-! ## Transfers -/

/-- The end of a transfer touches its own port alone, and leaves it IDLE with no response pending. -/
theorem ended_port {s : State} {p : PortId} {frame : List Byte} (h : s.CanEnd p frame) :
    ∃ bytes, (endTransfer p frame s).bytes = some bytes ∧ s.ended p frame = s.setPort p ((s.port p).endTransfer bytes) := by
  unfold State.CanEnd at h
  unfold State.ended endTransfer
  cases hb : (s.port p).transferBytes frame with
  | none => exact absurd hb h
  | some bytes => exact ⟨bytes, rfl, rfl⟩

theorem configSectionOf_code (x : ConfigSection) : configSectionOf x.code = some x := by
  cases x with
  | sat n => revert n; decide
  | _ => rfl

theorem profileSectionOf_code (x : ProfileSection) : profileSectionOf x.code = some x := by
  cases x with
  | gum n => revert n; decide
  | _ => rfl

theorem slotOf_val (i : Fin 4) : slotOf i.val = some i := by
  revert i
  decide

/-- A command whose transfer can end is answered by its own rule (R191). -/
theorem takeCommand_of_canEnd {s : State} {p : PortId} {code tag : Byte} {payload : List Byte}
    (h : s.CanEnd p (commandFrame code tag payload)) (hl : payload.length ≤ 61) (body : State → Answer) :
    takeCommand p code tag payload body s
      = respond p
          ⟨code, tag, (body (s.ended p (commandFrame code tag payload))).result,
            (body (s.ended p (commandFrame code tag payload))).reason,
            (body (s.ended p (commandFrame code tag payload))).payload⟩
          (body (s.ended p (commandFrame code tag payload))).part := by
  obtain ⟨bytes, hb, _⟩ := ended_port h
  have hk : payload.length ≤ commandPayloadLimit := hl
  simp only [takeCommand, hb, hk, if_true]
  rfl

/-- A payload of the fixed length is judged by the command's own rule (R194). -/
theorem withLength_of_length {n : Nat} {payload : List Byte} (h : payload.length = n) (body : State → Answer) (s : State) :
    withLength n payload body s = body s := by
  simp [withLength, h]

end Sys2Proof.Machine
end

