-- ==== Sys2Proof/Laws/Passage.lean ====
section
/-! SUPPORT. What one movement and one tick take, said once: the passage of R70 (`settleEvent_passes`) and the scheduler's part of a tick
(`scheduleTick_schedules`). A proof cites these in place of unfolding `settle` or `recomputeAll`. -/

namespace Sys2Proof.Machine

/-- Every point stands in the list of all points (R57). -/
theorem mem_allPoints (pt : TimedPoint) : pt ∈ allPoints := List.mem_of_getElem? (allPoints_pointIndex pt)

/-- No point stands in it twice (R57). -/
theorem allPoints_nodup : allPoints.Nodup := by
  have h : allPoints.map (fun p => (pointIndex p).val) = List.range 42 := by decide
  exact List.Nodup.of_map _ (h ▸ List.nodup_range)

/-! ## The lowest passed target (R70) -/

theorem greatest_le_iff (xs : List Nat) (m : Nat) : greatest xs ≤ m ↔ ∀ x ∈ xs, x ≤ m := by
  have h : ∀ (xs : List Nat) (a : Nat), xs.foldl Nat.max a ≤ m ↔ a ≤ m ∧ ∀ x ∈ xs, x ≤ m := by
    intro xs
    induction xs with
    | nil => simp
    | cons x xs ih =>
      intro a
      rw [List.foldl_cons, ih, List.forall_mem_cons, show Nat.max a x = max a x from rfl, Nat.max_def]
      constructor
      · rintro ⟨h1, h2⟩
        split at h1
        · exact ⟨by omega, h1, h2⟩
        · exact ⟨h1, by omega, h2⟩
      · rintro ⟨h1, h2, h3⟩
        exact ⟨by split <;> assumption, h3⟩
  simpa [greatest] using h xs 0

theorem mem_duePoints {s : State} {pt : TimedPoint} : pt ∈ s.duePoints ↔ s.due pt = true := by
  simp [State.duePoints, mem_allPoints]

/-- The lowest passed targets (R70). -/
theorem mem_firstDue {s : State} {pt : TimedPoint} :
    pt ∈ s.firstDue ↔ s.due pt = true ∧ ∀ q, s.due q = true → s.behind q ≤ s.behind pt := by
  have hle : ∀ q, s.due q = true → s.behind q ≤ greatest (s.duePoints.map s.lag) := by
    intro q hq
    exact (greatest_le_iff _ _).mp (Nat.le_refl _) _ (List.mem_map.mpr ⟨q, mem_duePoints.mpr hq, rfl⟩)
  simp only [State.firstDue, List.mem_filter, mem_duePoints, beq_iff_eq]
  refine and_congr_right fun hd => ⟨fun h q hq => ?_, fun h => ?_⟩
  · exact Nat.le_trans (hle q hq) (Nat.le_of_eq h.symm)
  · refine Nat.le_antisymm (hle pt hd) ((greatest_le_iff _ _).mpr fun x hx => ?_)
    obtain ⟨q, hq, rfl⟩ := List.mem_map.mp hx
    exact h q (mem_duePoints.mp hq)

theorem firstDue_exists {s : State} {pt : TimedPoint} (h : s.due pt = true) : ∃ q, q ∈ s.firstDue := by
  by_contra hn
  push Not at hn
  have hg : ∀ xs : List Nat, xs ≠ [] → greatest xs ∈ xs := by
    intro xs hx
    have hm : ∀ (ys : List Nat) (a : Nat), ys.foldl Nat.max a = a ∨ ys.foldl Nat.max a ∈ ys := by
      intro ys
      induction ys with
      | nil => simp
      | cons y ys ih =>
        intro a
        rw [List.foldl_cons]
        rcases ih (Nat.max a y) with h | h
        · rw [h]
          rcases Nat.le_total a y with h' | h'
          · exact .inr (by simp [Nat.max_eq_right h'])
          · exact .inl (Nat.max_eq_left h')
        · exact .inr (List.mem_cons_of_mem _ h)
    cases xs with
    | nil => exact absurd rfl hx
    | cons y ys =>
      have : greatest (y :: ys) = ys.foldl Nat.max y := by simp [greatest]
      rw [this]
      rcases hm ys y with h | h
      · rw [h]; simp
      · exact List.mem_cons_of_mem _ h
  have hne : s.duePoints.map s.lag ≠ [] := by
    intro h0
    have : s.lag pt ∈ s.duePoints.map s.lag := List.mem_map.mpr ⟨pt, mem_duePoints.mpr h, rfl⟩
    rw [h0] at this
    cases this
  obtain ⟨q, hq, he⟩ := List.mem_map.mp (hg _ hne)
  exact hn q (by simp only [State.firstDue, List.mem_filter, beq_iff_eq]; exact ⟨hq, he⟩)

/-! ## What is taken next (R9, R64, R70) -/

/-- Whether the creation comes first (R9, R70). -/
theorem creationNext_iff (s : State) : s.CreationNext ↔ s.creationFirst = true := by
  unfold State.CreationNext State.creationFirst State.creationDue State.boundary
  cases hw : s.track.highWater with
  | none => simp
  | some h =>
    simp only [Option.map_some, Option.isSome_some, Bool.and_true, Bool.and_eq_true, decide_eq_true_eq, Option.some.injEq, exists_eq_left', and_assoc, greatest_le_iff,
      List.mem_map, mem_duePoints, forall_exists_index, and_imp, forall_apply_eq_imp_iff₂]
    rfl

/-- A point that is taken next is fired once. -/
theorem fireOnce_takesNext {s : State} {pt : TimedPoint} (h : s.PointNext pt) (n : Nat) :
    s.TakesNext (fireOnce pt { s with freeCount := n }) :=
  .inr ⟨pt, n, h, rfl⟩

theorem pointNext_of_firstDue {s : State} {pt : TimedPoint} (hm : pt ∈ s.firstDue) (hc : ¬s.CreationNext)
    (hw : (s.slot pt).angle.isSome = true → s.waitsForOn s.firstDue pt = false) : s.PointNext pt := by
  obtain ⟨hd, hb⟩ := mem_firstDue.mp hm
  refine ⟨hd, hb, hc, ?_⟩
  rintro v j rfl ha hon he hcy
  have hf := hw ha
  have hmem : TimedPoint.valveOn v j ∈ s.firstDue :=
    mem_firstDue.mpr ⟨hon, fun q hq => he ▸ hb q hq⟩
  simp only [State.waitsForOn, List.any_eq_false] at hf
  exact hf _ hmem (by simp [hcy])

/-- What a movement or a tick takes next is what R70 says (R9, R70). -/
theorem takePassed_takesNext {s : State} {x : Passed} (h : s.nextPassed = some x) : s.TakesNext (takePassed x s) := by
  unfold State.nextPassed at h
  split at h
  · rename_i hc
    cases h
    exact .inl ⟨(creationNext_iff s).mpr hc, rfl⟩
  · rename_i hc
    have hcn : ¬s.CreationNext := fun h => hc ((creationNext_iff s).mp h)
    split at h
    · rename_i pt hv
      cases h
      have hm := List.mem_of_find?_eq_some hv
      have ha := List.find?_some hv
      exact fireOnce_takesNext (pointNext_of_firstDue hm hcn (fun h => by
        cases h' : (s.slot pt).angle <;> simp_all)) s.freeCount
    · split at h
      · cases h
      · rename_i pt hf
        cases h
        have hm : pt ∈ s.firstDue.filter fun pt => !s.waitsForOn s.firstDue pt := by rw [hf]; simp
        obtain ⟨h1, h2⟩ := List.mem_filter.mp hm
        exact fireOnce_takesNext (pointNext_of_firstDue h1 hcn (fun _ => by simpa using h2)) s.freeCount
      · rename_i pts hn1 hn2
        cases h
        simp only [takePassed]
        split
        · rename_i hnone
          exfalso
          unfold chooseTied at hnone
          split at hnone
          · cases hnone
          · rw [List.getElem?_eq_none_iff] at hnone
            have : 0 < (s.firstDue.filter fun pt => !s.waitsForOn s.firstDue pt).length := by
              cases hl : (s.firstDue.filter fun pt => !s.waitsForOn s.firstDue pt) with
              | nil => exact absurd hl hn1
              | cons a as => simp
            exact absurd (Nat.mod_lt (Config.tieChoice s.freeCount) this) (by omega)
        · rename_i pt hsome
          have hm : pt ∈ s.firstDue.filter fun pt => !s.waitsForOn s.firstDue pt := by
            unfold chooseTied at hsome
            split at hsome
            · rename_i heq
              cases hsome
              rw [heq]; simp
            · exact List.mem_of_getElem? hsome
          obtain ⟨h1, h2⟩ := List.mem_filter.mp hm
          exact fireOnce_takesNext (pointNext_of_firstDue h1 hcn (fun _ => by simpa using h2)) (s.freeCount + 1)

/-- Nothing is taken next exactly where nothing stands passed. -/
theorem nextPassed_eq_none {s : State} : s.nextPassed = none ↔ s.NothingPassed := by
  constructor
  · intro h
    unfold State.nextPassed at h
    split at h
    · cases h
    · rename_i hc
      split at h
      · cases h
      · rename_i hv
        split at h
        · rename_i hf
          have hd : ∀ pt, s.due pt = false := by
            intro pt
            by_contra hp
            obtain ⟨q, hq⟩ := firstDue_exists (s := s) (pt := pt) (by simpa using hp)
            have hw : ∀ q ∈ s.firstDue, s.waitsForOn s.firstDue q = true := by
              intro q hq
              by_contra hn
              have : q ∈ s.firstDue.filter fun pt => !s.waitsForOn s.firstDue pt := List.mem_filter.mpr ⟨hq, by simpa using hn⟩
              rw [hf] at this
              cases this
            have := hw q hq
            cases q with
            | valveOff v k =>
              simp only [State.waitsForOn, List.any_eq_true, Bool.and_eq_true, beq_iff_eq] at this
              obtain ⟨q', hq', rfl, _⟩ := this
              have := hw _ hq'
              simp [State.waitsForOn] at this
            | _ => simp [State.waitsForOn] at this
          refine ⟨hd, ?_⟩
          by_contra hcd
          apply hc
          have hcd : s.creationDue = true := by simpa using hcd
          have hg : s.duePoints = [] := List.filter_eq_nil_iff.mpr (fun pt _ => by simp [hd pt])
          unfold State.creationFirst
          cases hb : s.boundary with
          | none => simp [State.creationDue, hb] at hcd
          | some b => simp [hcd, hg, greatest]
        · cases h
        · cases h
  · rintro ⟨hd, hc⟩
    have hg : s.duePoints = [] := List.filter_eq_nil_iff.mpr (fun pt _ => by simp [hd pt])
    have hf : s.creationFirst = false := by unfold State.creationFirst; split <;> simp [hc]
    simp [State.nextPassed, State.firstDue, hg, hf, State.firstVoid]

/-! ## What a forward movement passes (R2, R9, R70) -/

theorem passes_iff (s : State) (x y : Nat) :
    s.passes x y = true ↔ s.shaft.homed = true ∧ 2 ^ 31 * s.pitch ≤ forwardDistance s.pitch x y
      ∧ forwardDistance s.pitch s.shaft.position y < 2 ^ 31 * s.pitch := by
  simp [State.passes, atOrBeyond, and_assoc]

@[simp] theorem markPassed_slot (x : Nat) (s : State) (pt : TimedPoint) :
    (markPassed x s).slot pt = (s.slot pt).afterMove s x := by
  simp only [State.slot, Sched.slot, markPassed, mapVector_getElem]

@[simp] theorem markPassed_track (x : Nat) (s : State) :
    (markPassed x s).track = { s.track with boundaryPassed := s.track.boundaryPassed || s.passesBoundary x } := rfl

/-- All that a forward movement from `x` changes beside the shaft: what it passed now stands passed. -/
theorem markPassed_moves (x : Nat) (s : State) : s.MovedFrom (markPassed x s) x := by
  refine ⟨fun pt => ?_, rfl, ?_, rfl⟩
  · simp [ActionSlot.afterMove, passes_iff]
  · cases h : s.track.highWater <;> simp [State.passesBoundary, State.boundary, h, passes_iff]

/-- A movement from `x` that passes neither a target nor the boundary changes nothing beside the shaft. -/
theorem markPassed_eq_self {x : Nat} {s : State} (hp : ∀ pt, (s.slot pt).phase = .armed → s.passes x (s.slot pt).target = false)
    (hb : s.passesBoundary x = false) : markPassed x s = s := by
  have hs : mapVector (fun a : ActionSlot => a.afterMove s x) s.sched.slots = s.sched.slots := by
    apply Vector.ext
    intro i hi
    rw [mapVector_getElem]
    obtain ⟨pt, rfl⟩ : ∃ pt, (pointIndex pt).val = i := by
      have h : ∀ i : Fin 42, ∃ pt ∈ allPoints, (pointIndex pt).val = i.val := by decide
      obtain ⟨pt, -, h⟩ := h ⟨i, hi⟩
      exact ⟨pt, h⟩
    have h := hp pt
    simp only [State.slot, Sched.slot] at h
    generalize s.sched.slots[(pointIndex pt).val] = a at h ⊢
    obtain ⟨phase⟩ := a
    cases phase <;> simp_all [ActionSlot.afterMove]
  simp only [markPassed, hs, hb, Bool.or_false]

/-! ## One event (R68, R70, R82) -/

theorem settle_takes (k : Nat) (s : State) :
    ∃ n, n ≤ k ∧ State.Takes n s (settle k s) ∧ (n < k → (settle k s).NothingPassed) := by
  induction k generalizing s with
  | zero => exact ⟨0, Nat.le_refl _, rfl, by omega⟩
  | succ k ih =>
    simp only [settle]
    split
    · rename_i h
      exact ⟨0, by omega, rfl, fun _ => nextPassed_eq_none.mp h⟩
    · rename_i x h
      obtain ⟨n, h1, h2, h3⟩ := ih (takePassed x s)
      exact ⟨n + 1, by omega, ⟨_, takePassed_takesNext h, h2⟩, fun hn => h3 (by omega)⟩

/-- All that stands passed is taken, in R70's order, and the valve outputs are set (R82). -/
theorem settleEvent_passes (s : State) : s.PassedTo (settleEvent s) := by
  obtain ⟨n, h1, h2, h3⟩ := settle_takes settleLimit s
  exact ⟨n, _, h1, h2, h3, rfl⟩

theorem settleEvent_of_nothingPassed {s : State} (h : s.NothingPassed) : settleEvent s = setValveOutputs s := by
  simp [settleEvent, settleLimit, settle, nextPassed_eq_none.mpr h]

/-! ## The recomputation of a tick (R68) -/

/-- A state that differs from `s` in its slots and its records alone. -/
def State.AgreesWith (s u : State) : Prop := { u with sched := { u.sched with slots := s.sched.slots }, track := s.track } = s

/-- TIMING joins the blank of a slot whose recomputation notes a clamp; nothing else leaves the slot (R61, R68). -/
theorem recompute_cases (pt : TimedPoint) (s : State) :
    recompute pt s
      = if s.recomputed pt then
          if s.notesClamp pt then addDefect (s.slot pt).serial .timing (s.setSlot pt ((retarget pt s).slot pt))
          else s.setSlot pt ((retarget pt s).slot pt)
        else s := by
  unfold recompute
  by_cases h : s.recomputed pt = true
  · have h' := h
    simp only [State.recomputed, Bool.and_eq_true, beq_iff_eq, and_assoc] at h'
    rw [if_pos h', if_pos h]
    unfold State.notesClamp
    obtain ⟨a, ha⟩ := Option.isSome_iff_exists.mp h'.2.1
    simp only [h, retarget, ha, Bool.true_and, State.aimed]
    cases hr : (relativeAngle s pt (s.slot pt) a).clamped <;> cases hn : (s.slot pt).clampNoted <;> simp
  · have h' := h
    simp only [State.recomputed, Bool.and_eq_true, beq_iff_eq, and_assoc] at h'
    rw [if_neg h', if_neg h]

/-- The recomputation of a slot reads nothing that the recomputation of another writes. -/
theorem retarget_slot_congr {s u : State} (h : s.AgreesWith u) {pt : TimedPoint} (he : u.slot pt = s.slot pt) :
    (retarget pt u).slot pt = (retarget pt s).slot pt := by
  unfold State.AgreesWith at h
  have hc : u.config = s.config := by rw [← h]
  have hsh : u.shaft = s.shaft := by rw [← h]
  have hr : u.reg = s.reg := by rw [← h]
  have hsg : u.sched.segments = s.sched.segments := by rw [← h]
  have hp : u.pitch = s.pitch := by simp [State.pitch, hc]
  have hrel : ∀ x a, relativeAngle u pt x a = relativeAngle s pt x a := by
    intro x a
    simp [relativeAngle, hc, hsh, hr, hp, offFloor, Sched.instanceOf, hsg]
  unfold retarget
  simp only [State.aimed, he, hp, hsh, hrel]
  split
  · simp
  · split <;> simp

/-- The records after the clamps of the points `done` were noted (R61, R68). -/
def State.timed (s : State) (done : List TimedPoint) : List Blank :=
  s.track.records.map fun b =>
    if done.any (fun pt => s.notesClamp pt && (s.slot pt).serial == b.serial) then
      { b with defects := { b.defects with timing := true } }
    else b

/-- `u` is `s` with the slots of the points `done` recomputed (R68). -/
structure State.RecomputedOver (s u : State) (done : List TimedPoint) : Prop where
  agrees : s.AgreesWith u
  slots : ∀ pt, u.slot pt = if pt ∈ done ∧ s.recomputed pt = true then (retarget pt s).slot pt else s.slot pt
  track : u.track = { s.track with records := s.timed done }

theorem recompute_step {s u : State} {done : List TimedPoint} {pt : TimedPoint} (h : s.RecomputedOver u done) (hn : pt ∉ done) :
    s.RecomputedOver (recompute pt u) (pt :: done) := by
  have he : u.slot pt = s.slot pt := by rw [h.slots, if_neg (fun x => hn x.1)]
  have hag := h.agrees
  unfold State.AgreesWith at hag
  have hc : u.config = s.config := by rw [← hag]
  have hre : u.recomputed pt = s.recomputed pt := by simp [State.recomputed, he, hc]
  have hrt := retarget_slot_congr h.agrees he
  have hno : u.notesClamp pt = s.notesClamp pt := by simp [State.notesClamp, hre, he, hrt]
  rw [recompute_cases, hre, hno, hrt, he]
  by_cases hr : s.recomputed pt = true
  · rw [if_pos hr]
    have hslots : ∀ q, (u.setSlot pt ((retarget pt s).slot pt)).slot q
        = if q ∈ pt :: done ∧ s.recomputed q = true then (retarget q s).slot q else s.slot q := by
      intro q
      by_cases hq : q = pt
      · subst hq; simp [hr]
      · rw [setSlot_slot_of_ne _ _ hq, h.slots]; simp [hq]
    cases hcl : s.notesClamp pt
    · simp only [Bool.false_eq_true, if_false]
      refine ⟨?_, hslots, ?_⟩
      · exact hag
      · have ht := h.track
        simp only [State.timed, List.any_cons, hcl, Bool.false_and, Bool.false_or]
        exact ht
    · simp only [if_true]
      refine ⟨?_, fun q => (addDefect_slot _ _ _ q).trans (hslots q), ?_⟩
      · exact hag
      · have ht := h.track
        have : (addDefect (s.slot pt).serial .timing (u.setSlot pt ((retarget pt s).slot pt))).track
            = { u.track with records := u.track.records.map fun b =>
                if b.serial = (s.slot pt).serial then { b with defects := b.defects.insert .timing } else b } := rfl
        rw [this, ht]
        simp only [State.timed, List.map_map]
        congr 1
        apply List.map_congr_left
        intro b _
        simp only [Function.comp, List.any_cons, hcl, Bool.true_and]
        by_cases hb : (s.slot pt).serial = b.serial
        · split <;> simp [hb, DefectSet.insert]
        · have hb' : ¬b.serial = (s.slot pt).serial := fun x => hb x.symm
          split <;> simp_all
  · rw [if_neg hr]
    have hcl : s.notesClamp pt = false := by simp [State.notesClamp, hr]
    refine ⟨h.agrees, fun q => ?_, ?_⟩
    · rw [h.slots]
      by_cases hq : q = pt
      · subst hq; simp [hr]
      · simp [hq]
    · have ht := h.track
      simp only [State.timed, List.any_cons, hcl, Bool.false_and, Bool.false_or]
      exact ht

theorem foldl_recompute {s : State} (xs done : List TimedPoint) {u : State} (h : s.RecomputedOver u done) (hd : ∀ x ∈ xs, x ∉ done)
    (hn : xs.Nodup) : ∃ all, (∀ x,
      x ∈ all ↔ x ∈ xs ∨ x ∈ done) ∧ s.RecomputedOver (xs.foldl (fun s pt => recompute pt s) u) all := by
  induction xs generalizing u done with
  | nil => exact ⟨done, by simp, h⟩
  | cons x xs ih =>
    obtain ⟨hx, hn⟩ := List.nodup_cons.mp hn
    obtain ⟨all, ha, hr⟩ := ih (x :: done) (recompute_step h (hd x (by simp))) (by
      intro y hy hm
      rcases List.mem_cons.mp hm with rfl | hm
      · exact hx hy
      · exact hd y (by simp [hy]) hm) hn
    refine ⟨all, fun y => ?_, hr⟩
    rw [ha]; simp [or_left_comm, or_assoc]

theorem recomputeAll_recomputes (s : State) : s.RecomputedTo (recomputeAll s) := by
  have h0 : s.RecomputedOver s [] := ⟨rfl, fun _ => by simp, by simp [State.timed]⟩
  have hm := mem_allPoints
  obtain ⟨all, ha, h⟩ := foldl_recompute allPoints [] h0 (fun _ _ => List.not_mem_nil) allPoints_nodup
  rw [← show recomputeAll s = allPoints.foldl (fun s pt => recompute pt s) s from rfl] at h
  generalize recomputeAll s = u at h ⊢
  clear h0
  have hall : ∀ x, x ∈ all := by
    intro x
    rw [ha]
    exact Or.inl (hm x)
  refine ⟨fun pt => ?_, ?_, h.agrees⟩
  · have := h.slots pt
    simp only [hall, true_and] at this
    exact this
  · have ht := h.track
    have : s.timed all = s.timed allPoints := by
      unfold State.timed
      congr 1
      funext b
      have : (all.any fun pt => s.notesClamp pt && (s.slot pt).serial == b.serial)
          = allPoints.any fun pt => s.notesClamp pt && (s.slot pt).serial == b.serial := by
        rw [Bool.eq_iff_iff]; simp only [List.any_eq_true, hall, mem_allPoints]
      rw [this]
    rw [this] at ht
    exact ht

/-- The scheduler's part of a tick is what R68 says. -/
theorem scheduleTick_schedules (stopped : Bool) (s : State) : s.ScheduledTo (scheduleTick stopped s) stopped := by
  refine ⟨fun h => by simp [scheduleTick, h], fun h => ⟨recomputeAll (if stopped then closeSegments s else s), ?_, ?_⟩⟩
  · exact recomputeAll_recomputes (if stopped then closeSegments s else s)
  · have : scheduleTick stopped s = settleEvent (recomputeAll (if stopped then closeSegments s else s)) := by simp [scheduleTick, h]
    rw [this]
    exact settleEvent_passes _

end Sys2Proof.Machine
end

