-- ==== Sys2Proof/Laws/Arming.lean ====
section
/-! SUPPORT. What arming the slots at a homing does, said once (`armAtHoming_arms`). -/

namespace Sys2Proof.Machine

/-- Arming a slot reads the configuration, the shaft, the register monitor, the open segments and the blank's profile alone. -/
theorem armedFor_slot_congr {s u : State} {pt : TimedPoint} {c : Serial} (hc : u.config = s.config) (hsh : u.shaft = s.shaft)
    (hr : u.reg = s.reg) (hsg : u.sched.segments = s.sched.segments)
    (hp : u.profileOf (c - BitVec.ofNat 32 (stationOf s.config pt)) = s.profileOf (c - BitVec.ofNat 32 (stationOf s.config pt))) :
    (u.armedFor pt c).slot pt = (s.armedFor pt c).slot pt := by
  have hrel : ∀ (t : State), t.sched.segments = s.sched.segments → t.config = s.config → t.shaft = s.shaft → t.reg = s.reg →
      ∀ x a, relativeAngle t pt x a = relativeAngle s pt x a := by
    intro t h1 h2 h3 h4 x a
    simp [relativeAngle, h2, h3, h4, State.pitch, offFloor, Sched.instanceOf, h1]
  unfold State.armedFor retarget
  simp only [State.aimed, setSlot_slot_self, hc, hp]
  split
  · simp [State.pitch, hc, hsh]
  · rw [hrel (u.setSlot pt _) hsg hc hsh hr, hrel (s.setSlot pt _) rfl rfl rfl rfl]
    split <;> simp [State.pitch, hc, hsh]

/-- The slot of an armed point, and TIMING on its blank where a clamp engaged (R61, R64). -/
theorem armedFor_cases (s : State) (pt : TimedPoint) (c : Serial) :
    s.armedFor pt c
      = if ((s.armedFor pt c).slot pt).clampNoted then
          addDefect (c - BitVec.ofNat 32 (stationOf s.config pt)) .timing (s.setSlot pt ((s.armedFor pt c).slot pt))
        else s.setSlot pt ((s.armedFor pt c).slot pt) := by
  unfold State.armedFor retarget
  simp only [State.aimed, setSlot_slot_self]
  split
  · simp
  · split <;> simp_all

theorem armedFor_slot_of_ne (s : State) {pt q : TimedPoint} (c : Serial) (h : q ≠ pt) : (s.armedFor pt c).slot q = s.slot q := by
  rw [armedFor_cases]
  split
  · rw [addDefect_slot, setSlot_slot_of_ne _ _ h]
  · rw [setSlot_slot_of_ne _ _ h]

/-- `u` is `s` with the points `done` of position 0 armed for the creation of blank `c` where they were WAITING (R67). -/
def State.ArmedWhereWaiting (s u : State) (c : Serial) (done : List TimedPoint) : Prop :=
  { u with sched := { u.sched with slots := s.sched.slots } } = s
    ∧ ∀ pt, u.slot pt = if pt ∈ done ∧ (s.slot pt).phase = .waiting then (s.armedFor pt c).slot pt else s.slot pt

theorem armWaiting_step {s u : State} {c : Serial} {done : List TimedPoint} (h : s.ArmedWhereWaiting u c done) {pt : TimedPoint}
    (hl : ∀ m, leadOf m pt = none) (hn : pt ∉ done) :
    s.ArmedWhereWaiting (if (u.slot pt).phase = .waiting then armSlot pt c u else u) c (pt :: done) := by
  obtain ⟨hag, hs⟩ := h
  have he : u.slot pt = s.slot pt := by rw [hs, if_neg (fun x => hn x.1)]
  have hc : u.config = s.config := by rw [← hag]
  have hp : ∀ n, u.profileOf n = s.profileOf n := by
    intro n
    have h1 : u.track = s.track := by rw [← hag]
    have h2 : u.profiles = s.profiles := by rw [← hag]
    simp [State.profileOf, h1, h2]
  have hcon : (u.armedFor pt c).slot pt = (s.armedFor pt c).slot pt :=
    armedFor_slot_congr hc (by rw [← hag]) (by rw [← hag]) (by rw [← hag]) (hp _)
  rw [he]
  by_cases hw : (s.slot pt).phase = .waiting
  · rw [if_pos hw, armSlot_eq]
    have hnc : ((u.armedFor pt c).slot pt).clampNoted = false := by
      unfold State.armedFor retarget
      simp only [setSlot_slot_self]
      split
      · simp [State.aimed]
      · simp [relativeAngle, hl, State.aimed]
    refine ⟨?_, fun q => ?_⟩
    · rw [armedFor_cases, if_neg (by simp [hnc])]
      exact hag
    · by_cases hq : q = pt
      · subst hq; simp [hw, hcon]
      · rw [armedFor_slot_of_ne _ _ hq, hs]; simp [hq]
  · rw [if_neg hw]
    refine ⟨hag, fun q => ?_⟩
    rw [hs]
    by_cases hq : q = pt
    · subst hq; simp [hw]
    · simp [hq]

/-- Everything the creation of blank `c` arms: the WAITING slots at position 0 (R67). -/
theorem armWaiting_arms (c : Serial) (s : State) :
    s.ArmedWhereWaiting (armWaiting c s) c [.printClose, .printOpen, .webSample] := by
  have h0 : s.ArmedWhereWaiting s c [] := ⟨rfl, fun _ => by simp⟩
  exact armWaiting_step (armWaiting_step (armWaiting_step h0 (pt := .webSample) (fun _ => rfl) (by simp)) (pt := .printOpen)
    (fun _ => rfl) (by simp)) (pt := .printClose) (fun _ => rfl) (by simp)

/-- `u` is `s` with the points `done` armed for the homing to `c0`. -/
structure State.ArmedOver (s u : State) (c0 : Serial) (done : List TimedPoint) : Prop where
  agrees : s.AgreesWith u
  slots : ∀ pt, u.slot pt = if pt ∈ done then (s.armedFor pt (c0 + BitVec.ofNat 32 (stationOf s.config pt))).slot pt else s.slot pt
  track : u.track =
    { s.track with
      records := s.track.records.map fun b =>
        if done.any (fun pt => ((s.armedFor pt (c0 + BitVec.ofNat 32 (stationOf s.config pt))).slot pt).clampNoted) && c0 == b.serial
        then { b with defects := { b.defects with timing := true } } else b }

theorem armedOver_step {s u : State} {c0 : Serial} {done : List TimedPoint} (h : s.ArmedOver u c0 done) (pt : TimedPoint) :
    s.ArmedOver (armSlot pt (c0 + BitVec.ofNat 32 (stationOf u.config pt)) u) c0 (pt :: done) := by
  have hag := h.agrees
  unfold State.AgreesWith at hag
  have hc : u.config = s.config := by rw [← hag]
  have hsh : u.shaft = s.shaft := by rw [← hag]
  have hr : u.reg = s.reg := by rw [← hag]
  have hsg : u.sched.segments = s.sched.segments := by rw [← hag]
  have hpr : u.profiles = s.profiles := by rw [← hag]
  have hprof : ∀ n, u.profileOf n = s.profileOf n := by
    intro n
    unfold State.profileOf Track.find
    rw [hpr, h.track, List.find?_map]
    have : ((fun b : Blank => b.serial == n) ∘ fun b : Blank =>
        if done.any (fun pt => ((s.armedFor pt (c0 + BitVec.ofNat 32 (stationOf s.config pt))).slot pt).clampNoted) && c0 == b.serial
        then { b with defects := { b.defects with timing := true } } else b) = fun b : Blank => b.serial == n := by
      funext b
      simp only [Function.comp]
      split <;> rfl
    rw [this]
    cases s.track.records.find? fun b => b.serial == n with
    | none => rfl
    | some b =>
      simp only [Option.map_some]
      split <;> rfl
  rw [hc, armSlot_eq, armedFor_cases, armedFor_slot_congr hc hsh hr hsg (hprof _), hc]
  have hn : c0 + BitVec.ofNat 32 (stationOf s.config pt) - BitVec.ofNat 32 (stationOf s.config pt) = c0 := by simp
  rw [hn]
  have hslots : ∀ q, (u.setSlot pt ((s.armedFor pt (c0 + BitVec.ofNat 32 (stationOf s.config pt))).slot pt)).slot q
      = if q ∈ pt :: done then (s.armedFor q (c0 + BitVec.ofNat 32 (stationOf s.config q))).slot q else s.slot q := by
    intro q
    by_cases hq : q = pt
    · subst hq; simp
    · rw [setSlot_slot_of_ne _ _ hq, h.slots]; simp [hq]
  cases hcl : ((s.armedFor pt (c0 + BitVec.ofNat 32 (stationOf s.config pt))).slot pt).clampNoted
  · simp only [Bool.false_eq_true, if_false]
    refine ⟨hag, hslots, ?_⟩
    simp only [List.any_cons, hcl, Bool.false_or]
    exact h.track
  · simp only [if_true]
    refine ⟨hag, fun q => (addDefect_slot _ _ _ q).trans (hslots q), ?_⟩
    have : ∀ v : State, (addDefect c0 .timing v).track = { v.track with records := v.track.records.map fun b =>
        if b.serial = c0 then { b with defects := b.defects.insert .timing } else b } := fun _ => rfl
    rw [this]
    simp only [setSlot_track, h.track, List.map_map, List.any_cons, hcl, Bool.true_or, Bool.true_and]
    congr 1
    apply List.map_congr_left
    intro b _
    simp only [Function.comp]
    by_cases hb : b.serial = c0
    · split <;> simp [hb, DefectSet.insert]
    · have hb' : ¬c0 = b.serial := fun x => hb x.symm
      simp [hb, hb']

theorem foldl_armedOver {s u : State} {c0 : Serial} {done : List TimedPoint} (xs : List TimedPoint) (h : s.ArmedOver u c0 done) :
    ∃ all, (∀ x, x ∈ all ↔ x ∈ xs ∨ x ∈ done)
      ∧ s.ArmedOver (xs.foldl (fun s pt => armSlot pt (c0 + BitVec.ofNat 32 (stationOf s.config pt)) s) u) c0 all := by
  induction xs generalizing u done with
  | nil => exact ⟨done, by simp, h⟩
  | cons x xs ih =>
    obtain ⟨all, ha, hr⟩ := ih (armedOver_step h x)
    exact ⟨all, fun y => by rw [ha]; simp [or_left_comm, or_assoc], hr⟩

/-- The slots armed at a homing (R65). -/
theorem mem_homingPoints {c : MachineConfig} {pt : TimedPoint} :
    pt ∈ homingPoints c ↔
      ¬(pt = .kick ∨ ∃ v k : Fin 4, (pt = .valveOn v k ∨ pt = .valveOff v k) ∧ c.channels.valves[v.val].enable = false) := by
  have : pt ∈ homingPoints c ↔ pt ≠ .kick ∧ valveDisabled c pt = false := by
    simp [homingPoints, mem_allPoints]
  rw [this, not_or]
  refine and_congr_right fun _ => ?_
  cases pt <;> simp [valveDisabled]

/-- Everything the arming of a homing does (R65). -/
theorem armAtHoming_arms (c0 : Serial) (s : State) : s.ArmedAtHoming (armAtHoming c0 s) c0 := by
  have h0 : s.ArmedOver s c0 [] := ⟨rfl, fun _ => by simp, by simp⟩
  obtain ⟨all, ha, h⟩ := foldl_armedOver (homingPoints s.config) h0
  rw [← show armAtHoming c0 s
    = (homingPoints s.config).foldl (fun s pt => armSlot pt (c0 + BitVec.ofNat 32 (stationOf s.config pt)) s) s from rfl] at h
  have hall : ∀ x, x ∈ all ↔ x ∈ homingPoints s.config := by simpa using ha
  refine ⟨fun pt => ⟨fun hl => ?_, fun hl => ?_⟩, fun hx => ?_, fun hx => ?_, h.agrees⟩
  · rw [h.slots, if_neg]
    rw [hall, mem_homingPoints]
    exact fun hn => hn hl
  · rw [h.slots, if_pos]
    rw [hall, mem_homingPoints]
    exact hl
  · obtain ⟨pt, hl, hn⟩ := hx
    have : all.any (fun pt => ((s.armedFor pt (c0 + BitVec.ofNat 32 (stationOf s.config pt))).slot pt).clampNoted) = true :=
      List.any_eq_true.mpr ⟨pt, (hall pt).mpr (mem_homingPoints.mpr hl), hn⟩
    have hr : s.track.records.map (fun b =>
        if (true && c0 == b.serial) = true then { b with defects := { b.defects with timing := true } } else b)
          = s.track.records.map fun b =>
            if b.serial = c0 then { b with defects := { b.defects with timing := true } } else b := by
      apply List.map_congr_left
      intro b _
      by_cases hb : b.serial = c0
      · simp [hb]
      · have hb' : ¬c0 = b.serial := fun x => hb x.symm
        simp [hb, hb']
    rw [h.track, this, hr]
  · have : all.any (fun pt => ((s.armedFor pt (c0 + BitVec.ofNat 32 (stationOf s.config pt))).slot pt).clampNoted) = false := by
      rw [List.any_eq_false]
      intro pt hm
      rcases hx pt with hl | hn
      · exact absurd hl (mem_homingPoints.mp ((hall pt).mp hm))
      · simp [hn]
    rw [h.track, this]
    simp

end Sys2Proof.Machine
end

