-- ==== Sys2Proof/Laws/Batching.lean ====
section
/-! SUPPORT. What the operations of a close and of a count do, said once: the retirement check after a close, the kick it arms, and the
overrun check. A proof cites these in place of unfolding the operations. -/

namespace Sys2Proof.Machine

/-! ## The RETIRING slot (R21, R34) -/

theorem retiring_eq_none {p : Profiles} (h : ∀ i : Fin 4, (p.slot i).state ≠ .retiring) : p.retiring = none := by
  unfold Profiles.retiring
  rw [List.find?_eq_none]
  intro i _
  simp [h i]

theorem retiring_eq_some {p : Profiles} {i : Fin 4} (h : (p.slot i).state = .retiring)
    (only : ∀ j : Fin 4, (p.slot j).state = .retiring → j = i) : p.retiring = some i := by
  unfold Profiles.retiring
  cases hf : List.find? (fun i : Fin 4 => (p.slot i).state == .retiring) [0, 1, 2, 3] with
  | none =>
    rw [List.find?_eq_none] at hf
    have hm : ∀ i : Fin 4, i ∈ ([0, 1, 2, 3] : List (Fin 4)) := by decide
    exact absurd (hf i (hm i)) (by simp [h])
  | some j => rw [only j (by simpa using List.find?_some hf)]

/-! ## The kick of a close (R78) -/

theorem fireKick_eq (a : State) :
    fireKick a
      = State.setSlot
          { a with
            sched :=
              if a.config.channels.kick.enable then
                { a.sched with
                  kickPulse := some (a.time + a.config.channels.kick.width)
                  outputs := { a.sched.outputs with kick := true } }
              else a.sched } .kick { a.slot .kick with phase := .unarmed, passed := false } := by
  unfold fireKick startPulse
  by_cases h : a.config.channels.kick.enable = true
  · rw [if_pos h]; exact if_pos h
  · rw [if_neg h]; exact if_neg h

/-- A close in LIVE arms the kick, and one in any other run state leaves it. -/
theorem armKick_eq (c : Serial) (u : State) : armKick c u = if u.run.runState = .live then u.kickedFor c else u := by
  simp only [armKick, armSlot_eq, fireKick_eq]
  rfl

/-! ## The overrun of a held batch (R134) -/

theorem checkOverrun_eq (u : State) : checkOverrun u = u.overrunHanded := by
  unfold checkOverrun BatchBody.overrunMet State.overrunHanded State.openBatch
  dsimp only
  cases hh : u.batch.current.body.held
  · simp
  · cases ho : u.batch.current.body.order with
    | none => simp
    | some o =>
      simp only [Bool.true_and, decide_eq_true_eq]
      by_cases hp : o.target + o.overrun ≤ u.batch.current.body.good + u.batch.current.body.strays
      · cases hb : u.run.causes.backlog
        · simp [hp, handCause, CauseSet.has, hb, postHalt, post, State.setRun, CauseSet.insert, CauseSet.minus, permitOf,
            CauseSet.isEmpty, CauseSet.empty, State.portsAfter, State.portAfter, State.port, Ports.get]
        · simp [hp, handCause, CauseSet.has, hb]
      · simp [hp]

end Sys2Proof.Machine
end

