-- ==== Sys2Proof/Laws/Judging.lean ====
section
/-! SUPPORT. What a judgement of the register monitor does,
  said once (`judge_judged`): a proof cites it in place of unfolding the judgement
of R94 and R95, the integrator of R97 and the counts of R99 to R101. -/

namespace Sys2Proof.Machine

theorem setChannel_setChannel (s : State) (ch : RegChannel) (x y : Channel) : (s.setChannel ch x).setChannel ch y =
  s.setChannel ch y := by
  cases ch <;> rfl

theorem updateBlank_updateBlank (s : State) (n : Serial) (f g : Blank → Blank) (h : ∀ b, (f b).serial = b.serial) :
    (s.updateBlank n f).updateBlank n g = s.updateBlank n (fun b => g (f b)) := by
  simp only [State.updateBlank, List.map_map]
  congr 2
  apply List.map_congr_left
  intro b _
  by_cases hb : b.serial = n <;> simp [hb, h]

theorem find_updateBlank (s : State) (n m : Serial) (f : Blank → Blank) (h : ∀ b, (f b).serial = b.serial) :
    (s.updateBlank n f).track.find m = (s.track.find m).map fun b => if b.serial = n then f b else b := by
  have hf : ((fun b : Blank => b.serial == m) ∘ fun b => if b.serial = n then f b else b) = fun b => b.serial == m := by
    funext b
    by_cases hb : b.serial = n <;> simp [hb, h]
  simp only [State.updateBlank, Track.find, List.find?_map, hf]

theorem haltsOnLoss_updateBlank (s : State) (n m : Serial) (f : Blank → Blank) (h : ∀ b, (f b).serial = b.serial)
    (h' : ∀ b, (f b).slot = b.slot) : (s.updateBlank n f).haltsOnLoss m = s.haltsOnLoss m := by
  simp only [State.haltsOnLoss, State.profileOf, find_updateBlank s n m f h]
  cases s.track.find m with
  | none => rfl
  | some b =>
    by_cases hb : b.serial = n <;> simp [hb, h', State.updateBlank]

theorem portsAfter_two (s : State) (a b : Notice) : (post b (post a s)).ports = s.portsAfter [a, b] := rfl

theorem eps_quarter (max : Nat) (v e : Int) : clampTo max (v - quarter e) = integrated max v e := by
  rw [clampTo_eq]; rfl

theorem count_ne_three {x : Nat} : (countUpTo 255 x = 3) ↔ (Nat.min 255 (x + 1) == 3) = true := by
  rw [countUpTo_eq_min]; simp

/-- The bad half of a judgement (R99, R100). -/
theorem countBad_eq (ch : RegChannel) (n : Serial) (s : State) :
    countBad ch n s =
      (let x := s.channel ch
       let lost := Nat.min 255 (x.bad + 1) == 3 && x.state == .tracking
       let new := { x with state := if lost then .lost else x.state, bad := Nat.min 255 (x.bad + 1), good := 0 }
       let handed := lost && s.haltsOnLoss n && !s.run.causes.register
       let causes := { s.run.causes with register := true }
       { s.setChannel ch new with
         run := if handed then { s.run with causes := causes, permit := false } else s.run
         ports :=
           s.portsAfter
             ((if lost then [.register ch new.state n new.value] else [])
               ++ if handed then [.halt causes ⟨false, false, false, false,
                 true⟩ CauseSet.empty s.run.runState false] else []) }) := by
  unfold countBad
  simp only [countUpTo_eq_min]
  by_cases h : Nat.min 255 ((s.channel ch).bad + 1) = 3 ∧ (s.channel ch).state = .tracking
  · have h' : (Nat.min 255 ((s.channel ch).bad + 1) == 3 && (s.channel ch).state == .tracking) = true := by simp [h.1, h.2]
    rw [if_pos h, h']
    simp only
    cases hl : s.haltsOnLoss n
    · cases ch <;> rfl
    · rw [if_pos rfl]
      cases hr : s.run.causes.register <;> cases ch <;>
        simp [handCause, CauseSet.has, postRegister, post, State.setChannel, hr, postHalt, State.setRun, CauseSet.insert,
          CauseSet.minus,
          permitOf, CauseSet.isEmpty, CauseSet.empty, State.portsAfter, State.portAfter, State.port, Ports.get, State.channel,
            RegisterMonitor.get, RegisterMonitor.set]
  · have h' : (Nat.min 255 ((s.channel ch).bad + 1) == 3 && (s.channel ch).state == .tracking) = false := by
      rw [Bool.eq_false_iff]; simpa using h
    rw [if_neg h, h']
    rfl

theorem countGood_eq (ch : RegChannel) (n : Serial) (s : State) :
    countGood ch n s =
      (let x := s.channel ch
       let back := Nat.min 255 (x.good + 1) == 2 && x.state == .lost
       let new := { x with state := if back then .tracking else x.state, good := Nat.min 255 (x.good + 1), bad := 0 }
       { s.setChannel ch new with ports := s.portsAfter (if back then [.register ch new.state n new.value] else []) }) := by
  unfold countGood
  simp only [countUpTo_eq_min]
  by_cases h : Nat.min 255 ((s.channel ch).good + 1) = 2 ∧ (s.channel ch).state = .lost
  · have h' : (Nat.min 255 ((s.channel ch).good + 1) == 2 && (s.channel ch).state == .lost) = true := by simp [h.1, h.2]
    rw [if_pos h, h']
    cases ch <;> rfl
  · have h' : (Nat.min 255 ((s.channel ch).good + 1) == 2 && (s.channel ch).state == .lost) = false := by
      rw [Bool.eq_false_iff]; simpa using h
    rw [if_neg h, h']
    rfl

/-! ## A blank's record under a judgement -/

theorem setError_serial (b : Blank) (ch : RegChannel) (e : Int) : (b.setError ch e).serial = b.serial := by
  cases ch <;> simp only [Blank.setError, Blank.setPrintError, Blank.setPatchError] <;> split <;> rfl

theorem setError_slot (b : Blank) (ch : RegChannel) (e : Int) : (b.setError ch e).slot = b.slot := by
  cases ch <;> simp only [Blank.setError, Blank.setPrintError, Blank.setPatchError] <;> split <;> rfl

/-- Everything a judgement does (R94, R95, R97, R99 to R101). -/
theorem judge_judged (ch : RegChannel) (w : WindowRecord) (s : State) : judge ch w s = s.judgedTo ch w (s.haltsOnLoss w.serial)
  := by
  unfold judge
  cases hw : w.capture with
  | none =>
    simp only [judgeMissing, countBad_eq]
    have hl : ∀ x, ((addDefect w.serial (missingDefect ch) s).setChannel ch x).haltsOnLoss w.serial = s.haltsOnLoss w.serial :=
      fun x => haltsOnLoss_updateBlank s w.serial w.serial _ (fun _ => rfl) (fun _ => rfl)
    simp only [hl, setChannel_setChannel]
    cases ch <;>
      simp [State.judgedTo, Channel.goesLost, Channel.returns, Channel.judged, WindowRecord.isBad, hw, Blank.judged, addDefect,
        State.updateBlank, State.setChannel, State.channel, RegisterMonitor.get, RegisterMonitor.set, State.portsAfter,
          State.portAfter, State.port]
  | some a =>
    simp only [judgeCapture]
    have hl1 : ∀ x, ((s.updateBlank w.serial fun b => b.setError ch ((a : Int) - (w.e : Int))).setChannel ch x).haltsOnLoss w.serial
        = s.haltsOnLoss w.serial :=
      fun x => haltsOnLoss_updateBlank s w.serial w.serial _ (fun b => setError_serial b ch _) (fun b => setError_slot b ch _)
    have hl2 : ∀ x, (addDefect w.serial (errorDefect ch) ((s.updateBlank w.serial fun b => b.setError ch ((a : Int) - (w.e :
      Int))).setChannel ch x)).haltsOnLoss w.serial
        = s.haltsOnLoss w.serial :=
      fun x => (haltsOnLoss_updateBlank _ w.serial w.serial (fun b => { b with defects := b.defects.insert (errorDefect ch) })
        (fun _ => rfl)
        (fun _ => rfl)).trans (hl1 x)
    by_cases hb : w.t < ((a : Int) - (w.e : Int)).natAbs
    · rw [if_pos hb, countBad_eq]
      simp only [hl2]
      have hm : ∀ g : Blank → Blank,
        s.track.records.map ((fun b => if b.serial = w.serial then g b else b) ∘ fun b => if b.serial = w.serial then
          b.setError ch ((a : Int) - (w.e : Int)) else b)
         = s.track.records.map fun b => if b.serial = w.serial then g (b.setError ch ((a : Int) - (w.e : Int))) else b := by
        intro g
        apply List.map_congr_left
        intro b _
        by_cases hs : b.serial = w.serial <;> simp [hs, setError_serial]
      cases ch <;>
        simp [State.judgedTo, Channel.goesLost, Channel.returns, Channel.judged, WindowRecord.isBad, hw, hb, Blank.judged,
          addDefect,
          State.updateBlank, State.setChannel, State.channel, RegisterMonitor.get, RegisterMonitor.set, State.portsAfter,
            State.portAfter, State.port, integrate, eps_quarter, hm]
    · rw [if_neg hb, countGood_eq]
      cases ch <;>
        simp [State.judgedTo, Channel.goesLost, Channel.returns, Channel.judged, WindowRecord.isBad, hw, hb, Blank.judged,
          State.updateBlank, State.setChannel, State.channel, RegisterMonitor.get, RegisterMonitor.set, State.portsAfter,
            State.portAfter, State.port, integrate, eps_quarter]

end Sys2Proof.Machine
end

