-- ==== Sys2Proof/Laws/Layout.lean ====
section
/-! SUPPORT. The layouts of R203 said once: an item of each width is laid out as the part lays it out, so that a proof about a long answer
cites these and unfolds no layout. -/

namespace Sys2Proof.Machine

theorem layOut_nil : layOut [] = [] := rfl

theorem layOut_cons (x : Item) (xs : List Item) : layOut (x :: xs) = x.bytes ++ layOut xs := by simp [layOut]

theorem layOut_append (xs ys : List Item) : layOut (xs ++ ys) = layOut xs ++ layOut ys := by simp [layOut]

/-- Bytes depend on their value modulo 256. -/
theorem byte_congr {a b : Nat} (h : a % 256 = b % 256) : BitVec.ofNat 8 a = BitVec.ofNat 8 b := by
  apply BitVec.eq_of_toNat_eq
  simpa using h

theorem item1_bytes (n : Nat) : (⟨1, n⟩ : Item).bytes = byteOf n := by simp [Item.bytes, byteOf, List.range_succ]

theorem item2_bytes (n : Nat) : (⟨2, n⟩ : Item).bytes = bytes2 n := by simp [Item.bytes, bytes2, List.range_succ]

theorem item4_bytes (n : Nat) : (⟨4, n⟩ : Item).bytes = bytes4 n := by
  simp [Item.bytes, bytes2, bytes4, List.range_succ]
  refine ⟨byte_congr ?_, byte_congr ?_, byte_congr ?_⟩ <;> omega

theorem item6_bytes (n : Nat) : (⟨6, n⟩ : Item).bytes = bytes6 n := by
  simp [Item.bytes, bytes2, bytes4, bytes6, List.range_succ]
  refine ⟨byte_congr ?_, byte_congr ?_, byte_congr ?_, byte_congr ?_, byte_congr ?_⟩ <;> omega

/-- An absent item is all 0. -/
theorem item_zero_bytes (width : Nat) : (⟨width, 0⟩ : Item).bytes = List.replicate width 0 := by
  simp only [Item.bytes, Nat.zero_div]
  apply List.ext_getElem <;> simp

theorem flagItem_bytes (b : Bool) : (flagItem b).bytes = flagByte b := by cases b <;> rfl

theorem signedItem2_bytes (i : Int) : (signedItem 2 i).bytes = signed2 i := by
  rw [signedItem, item2_bytes, signed2]
  congr 1

theorem signedItem4_bytes (i : Int) : (signedItem 4 i).bytes = signed4 i := by
  rw [signedItem, item4_bytes, signed4]
  congr 1

theorem optItem1_layOut (x : Option Nat) : layOut (optItem 1 x) = optionalItem 1 byteOf x := by
  cases x <;> simp [optItem, layOut_cons, layOut_nil, item1_bytes, optionalItem, byteOf]

theorem optItem2_layOut (x : Option Nat) : layOut (optItem 2 x) = optionalItem 2 bytes2 x := by
  cases x <;> simp [optItem, layOut_cons, layOut_nil, item1_bytes, item2_bytes, optionalItem, byteOf, bytes2]

theorem optItem4_layOut (x : Option Nat) : layOut (optItem 4 x) = optionalItem 4 bytes4 x := by
  cases x <;> simp [optItem, layOut_cons, layOut_nil, item1_bytes, item4_bytes, optionalItem, byteOf, bytes4, bytes2]

theorem optionalItem_map {α β : Type} (width : Nat) (f : β → List Byte) (g : α → β) (x : Option α) :
    optionalItem width f (x.map g) = optionalItem width (fun a => f (g a)) x := by cases x <;> rfl

/-! ## The records (R204 to R206) -/

theorem layOut_flatMap {α : Type} (f : α → List Item) (xs : List α) : layOut (xs.flatMap f) = xs.flatMap fun x => layOut (f x) := by
  simp [layOut, List.flatMap_assoc]

/-- A whole number of entries fills as many bytes. -/
theorem flatMap_take {α : Type} (f : α → List Byte) (k : Nat) (hf : ∀ x, (f x).length = k) (xs : List α) (n : Nat) :
    (xs.flatMap f).take (k * n) = (xs.take n).flatMap f := by
  induction xs generalizing n with
  | nil => simp
  | cons x xs ih =>
    cases n with
    | zero => simp
    | succ n =>
      rw [List.flatMap_cons, List.take_succ_cons, List.flatMap_cons, List.take_append, hf, Nat.mul_succ, Nat.add_sub_cancel, ih,
        List.take_of_length_le (by rw [hf]; omega)]

theorem flatMap_length_of {α : Type} (f : α → List Byte) (k : Nat) (hf : ∀ x, (f x).length = k) (xs : List α) :
    (xs.flatMap f).length = k * xs.length := by
  induction xs with
  | nil => simp
  | cons x xs ih => simp [ih, hf, Nat.mul_succ, Nat.add_comm]

/-- The blank record (R204). -/
theorem blankBytes_eq (b : Blank) : blankBytes b = layOut b.items := by
  have hv : verdictBytes = fun v => BitVec.ofNat 8 v.source.val :: BitVec.ofNat 8 v.result.code :: v.code :: flagByte v.late := by
    funext v
    simp [verdictBytes, byteOf]
  have hl : ∀ v, (verdictBytes v).length = 4 := fun v => by simp [verdictBytes, byteOf, flagByte]
  have hs : shiftOut 16 (b.verdicts.flatMap verdictBytes)
      = (b.verdicts.take 4).flatMap verdictBytes ++ List.replicate (4 * (4 - b.verdicts.length)) 0 := by
    rw [shiftOut, flatMap_take _ 4 hl b.verdicts 4, flatMap_length_of _ 4 hl]
    congr 2
    omega
  unfold blankBytes verdictListBytes Blank.items
  rw [hs]
  cases b.printError <;> cases b.patchError <;>
    simp [layOut_cons, layOut_nil, layOut_append, layOut_flatMap, item1_bytes, item2_bytes, item4_bytes, flagItem_bytes,
      item_zero_bytes, signedItem2_bytes, optionalItem, byteOf, serialBytes, bytes2, hv, List.replicate_succ]

/-- The batch record (R204). -/
theorem batchBytes_eq (b : BatchBody) : batchBytes b = layOut b.items := by
  simp [batchBytes, BatchBody.items, BatchBody.adopted, BatchBody.serials, layOut_cons, layOut_nil, item1_bytes, item2_bytes,
    item4_bytes, flagItem_bytes, serialBytes]

theorem batchBytes_length (b : BatchBody) : (batchBytes b).length = 35 := by
  simp [batchBytes, serialBytes, bytes4, bytes2, byteOf, flagByte]

/-- A notice record (R205). -/
theorem noticeBytes_eq (n : Notice) : n.bytes = layOut n.items := by
  cases n with
  | register ch state m value =>
    cases ch <;>
      simp [Notice.bytes, Notice.code, Notice.content, Notice.items, regChannelCode, layOut_cons, layOut_nil, item1_bytes,
        item4_bytes, signedItem2_bytes] <;> simp [serialBytes, signed2, bytes4, bytes2, byteOf]
  | runState before after cause active high next causes permit =>
    have h1 := optItem1_layOut (active.map Fin.val)
    have h4 := optItem4_layOut (high.map BitVec.toNat)
    simp only [Notice.bytes, Notice.code, Notice.content, Notice.items, layOut_append, h1, h4, optionalItem_map, layOut_cons, layOut_nil,
      item1_bytes, item4_bytes, flagItem_bytes]
    cases active <;> cases high <;> simp [optionalItem, serialBytes, bytes4, bytes2, byteOf, flagByte]
  | satellite entry before after value round q =>
    have h2 := optItem2_layOut (value.map BitVec.toNat)
    simp only [Notice.bytes, Notice.code, Notice.content, Notice.items, layOut_append, h2, optionalItem_map, layOut_cons, layOut_nil,
      item1_bytes, item4_bytes]
    cases value <;> simp [optionalItem, serialBytes, bytes4, bytes2, byteOf]
  | batchClosed b =>
    simp [Notice.bytes, Notice.code, Notice.content, Notice.items, layOut_cons, item1_bytes, ← batchBytes_eq,
      batchBytes_length, byteOf]
  | batchLost b =>
    simp [Notice.bytes, Notice.code, Notice.content, Notice.items, layOut_cons, item1_bytes, ← batchBytes_eq,
      batchBytes_length, byteOf]
  | _ =>
    simp [Notice.bytes, Notice.code, Notice.content, Notice.items, layOut_cons, layOut_nil, item1_bytes, item2_bytes, item4_bytes,
      flagItem_bytes, serialBytes, bytes4, bytes2, byteOf, flagByte]

/-- A profile section's content (R206). -/
theorem sectionBytes_eq (c : Profile) (part : ProfileSection) : c.sectionBytes part = (c.sectionItems part).map layOut := by
  cases part with
  | header =>
    simp [Profile.sectionBytes, Profile.sectionItems, headerBytes, serialBytes, layOut_cons, layOut_nil, item1_bytes, item2_bytes,
      item4_bytes, flagItem_bytes]
  | print => simp [Profile.sectionBytes, Profile.sectionItems, printBytes, layOut_cons, layOut_nil, item2_bytes]
  | patch =>
    cases h : c.patch <;>
      simp [Profile.sectionBytes, Profile.sectionItems, h, patchBytes, layOut_cons, layOut_nil, item2_bytes]
  | gum v =>
    cases h : c.gum[v.val] <;>
      simp [Profile.sectionBytes, Profile.sectionItems, h, gumBytes, segmentBytes, layOut_cons, layOut_nil, layOut_flatMap, item1_bytes,
        item2_bytes]

/-- The canonical image (R206). -/
theorem image_eq (c : Profile) : c.image = layOut c.imageItems := by
  have hp : ∀ part : ProfileSection,
      presentBytes (c.sectionBytes part) = layOut (presentItems (c.sectionItems part)) := by
    intro part
    rw [sectionBytes_eq]
    cases c.sectionItems part <;> simp [presentBytes, presentItems, layOut_cons, layOut_nil, item1_bytes, byteOf]
  have hh : headerBytes c.header = layOut ((c.sectionItems .header).getD []) := Option.some.inj (sectionBytes_eq c .header)
  have hq : printBytes c.print = layOut ((c.sectionItems .print).getD []) := Option.some.inj (sectionBytes_eq c .print)
  have h2 := hp .patch
  have g := fun v => hp (.gum v)
  simp only [Profile.sectionBytes] at h2 g
  unfold Profile.image Profile.imageItems
  rw [hh, hq]
  have g0 := g 0
  have g1 := g 1
  have g2 := g 2
  have g3 := g 3
  simp only [Fin.isValue, Fin.val_zero, Fin.val_one, Fin.val_two] at g0 g1 g2
  rw [layOut_append, layOut_append, layOut_flatMap]
  simp only [List.flatMap_cons, List.flatMap_nil, List.append_nil, List.append_assoc]
  rw [← h2, ← g0, ← g1, ← g2, ← g3]
  rfl

/-! ## Written marks (R177) -/

/-- The section of a written mark (R177). -/
def sectionAt (k : Fin 13) : ConfigSection :=
  if h : k.val < 5 then
    match k with
    | 0 => .shaft
    | 1 => .stations
    | 2 => .angles
    | 3 => .channels
    | _ => .register
  else .sat ⟨k.val - 5, by omega⟩

theorem sectionAt_index (k : Fin 13) : (sectionAt k).index = k := by revert k; decide

theorem sectionAt_code (k : Fin 13) : (sectionAt k).code = k.val := by revert k; decide

/-- The first unwritten section has the code of its place (R177). -/
theorem unwritten_eq (m : MachineConfig) : m.unwritten = m.firstUnwritten.map ConfigSection.code := by
  have hs : configSections = ([0, 1, 2, 3, 4, 5, 6, 7, 8, 9, 10, 11, 12] : List (Fin 13)).map sectionAt := by decide
  have hw : (fun x : ConfigSection => !m.written[x.index.val]) ∘ sectionAt = fun k => !m.written[k.val] := by
    funext k
    simp only [Function.comp, sectionAt_index]
  have hc : ConfigSection.code ∘ sectionAt = Fin.val := funext sectionAt_code
  unfold MachineConfig.unwritten MachineConfig.firstUnwritten
  rw [hs, List.find?_map, Option.map_map, hw, hc]

end Sys2Proof.Machine
end

