-- ==== Sys2Proof/Laws/PerInstr.lean ====
section
/-! SUPPORT. What holds of every command as syntax, command by command. -/

namespace Sys2Proof

/-- The transfer that gives a command, where one does, goes to the port the command comes in on. -/
def Laws.PortOf.Statement (i : Instr) : Prop := ∀ b : TransferBytes, encodeTransfer i = some b → i.port = some b.port

theorem Laws.PortOf.hardwareReset (encA encB : Bool) : Laws.PortOf.Statement (.hardwareReset encA encB) := fun _ h => by cases h
theorem Laws.PortOf.encoderCount (encA encB webOk : Bool) : Laws.PortOf.Statement (.encoderCount encA encB webOk) :=
  fun _ h => by cases h
theorem Laws.PortOf.indexEdge (webOk : Bool) : Laws.PortOf.Statement (.indexEdge webOk) := fun _ h => by cases h
theorem Laws.PortOf.indexMissing : Laws.PortOf.Statement (.indexMissing) := fun _ h => by cases h
theorem Laws.PortOf.blankCreation : Laws.PortOf.Statement (.blankCreation) := fun _ h => by cases h
theorem Laws.PortOf.tick : Laws.PortOf.Statement (.tick) := fun _ h => by cases h
theorem Laws.PortOf.restDwellExpiry : Laws.PortOf.Statement (.restDwellExpiry) := fun _ h => by cases h
theorem Laws.PortOf.webSample (webOk : Bool) : Laws.PortOf.Statement (.webSample webOk) := fun _ h => by cases h
theorem Laws.PortOf.windowOpen (ch : RegChannel) : Laws.PortOf.Statement (.windowOpen ch) := fun _ h => by cases h
theorem Laws.PortOf.windowClose (ch : RegChannel) : Laws.PortOf.Statement (.windowClose ch) := fun _ h => by cases h
theorem Laws.PortOf.captureEdge (ch : RegChannel) : Laws.PortOf.Statement (.captureEdge ch) := fun _ h => by cases h
theorem Laws.PortOf.spliceEdge : Laws.PortOf.Statement (.spliceEdge) := fun _ h => by cases h
theorem Laws.PortOf.patchKnife : Laws.PortOf.Statement (.patchKnife) := fun _ h => by cases h
theorem Laws.PortOf.valveOn (v k : Fin 4) : Laws.PortOf.Statement (.valveOn v k) := fun _ h => by cases h
theorem Laws.PortOf.valveOff (v k : Fin 4) : Laws.PortOf.Statement (.valveOff v k) := fun _ h => by cases h
theorem Laws.PortOf.voidSlotConsumed (pt : TimedPoint) : Laws.PortOf.Statement (.voidSlotConsumed pt) := fun _ h => by cases h
theorem Laws.PortOf.camera : Laws.PortOf.Statement (.camera) := fun _ h => by cases h
theorem Laws.PortOf.gateDecision : Laws.PortOf.Statement (.gateDecision) := fun _ h => by cases h
theorem Laws.PortOf.countPoint : Laws.PortOf.Statement (.countPoint) := fun _ h => by cases h
theorem Laws.PortOf.kick : Laws.PortOf.Statement (.kick) := fun _ h => by cases h
theorem Laws.PortOf.pulseEnd (ch : PulseChannel) : Laws.PortOf.Statement (.pulseEnd ch) := fun _ h => by cases h
theorem Laws.PortOf.roundStart : Laws.PortOf.Statement (.roundStart) := fun _ h => by cases h
theorem Laws.PortOf.transactionAnswer (hi lo : Byte) : Laws.PortOf.Statement (.transactionAnswer hi lo) := fun _ h => by cases h
theorem Laws.PortOf.noAcknowledge (byte : NackByte) : Laws.PortOf.Statement (.noAcknowledge byte) := fun _ h => by cases h
theorem Laws.PortOf.transactionTimeout : Laws.PortOf.Statement (.transactionTimeout) := fun _ h => by cases h
theorem Laws.PortOf.transferBegin (p : PortId) (mosi : List Byte) : Laws.PortOf.Statement (.transferBegin p mosi) :=
  fun _ h => by cases h
theorem Laws.PortOf.frame (p : PortId) (bytes : List Byte) : Laws.PortOf.Statement (.frame p bytes) :=
  fun _ h => by cases h; rfl
theorem Laws.PortOf.unknown (p : PortId) (bytes : List Byte) : Laws.PortOf.Statement (.unknown p bytes) :=
  fun _ h => by cases h; rfl
theorem Laws.PortOf.nop (p : PortId) (tag : Byte) (payload : List Byte) : Laws.PortOf.Statement (.nop p tag payload) :=
  fun _ h => by cases h; rfl
theorem Laws.PortOf.identify (p : PortId) (tag : Byte) (payload : List Byte) : Laws.PortOf.Statement (.identify p tag payload) :=
  fun _ h => by cases h; rfl
theorem Laws.PortOf.subscribe (p : PortId) (tag : Byte) (payload : List Byte) : Laws.PortOf.Statement (.subscribe p tag payload) :=
  fun _ h => by cases h; rfl
theorem Laws.PortOf.noticeRead (p : PortId) (tag : Byte) (payload : List Byte) : Laws.PortOf.Statement (.noticeRead p tag payload) :=
  fun _ h => by cases h; rfl
theorem Laws.PortOf.status (p : PortId) (tag : Byte) (payload : List Byte) : Laws.PortOf.Statement (.status p tag payload) :=
  fun _ h => by cases h; rfl
theorem Laws.PortOf.start (p : PortId) (tag : Byte) (payload : List Byte) : Laws.PortOf.Statement (.start p tag payload) :=
  fun _ h => by cases h; rfl
theorem Laws.PortOf.stop (p : PortId) (tag : Byte) (payload : List Byte) : Laws.PortOf.Statement (.stop p tag payload) :=
  fun _ h => by cases h; rfl
theorem Laws.PortOf.clearHalt (p : PortId) (tag : Byte) (payload : List Byte) : Laws.PortOf.Statement (.clearHalt p tag payload) :=
  fun _ h => by cases h; rfl
theorem Laws.PortOf.runReset (p : PortId) (tag : Byte) (payload : List Byte) : Laws.PortOf.Statement (.runReset p tag payload) :=
  fun _ h => by cases h; rfl
theorem Laws.PortOf.configWrite (p : PortId) (tag : Byte) (payload : List Byte) : Laws.PortOf.Statement (.configWrite p tag payload) :=
  fun _ h => by cases h; rfl
theorem Laws.PortOf.configRead (p : PortId) (tag : Byte) (payload : List Byte) : Laws.PortOf.Statement (.configRead p tag payload) :=
  fun _ h => by cases h; rfl
theorem Laws.PortOf.stageOpen (p : PortId) (tag : Byte) (payload : List Byte) : Laws.PortOf.Statement (.stageOpen p tag payload) :=
  fun _ h => by cases h; rfl
theorem Laws.PortOf.stageWrite (p : PortId) (tag : Byte) (payload : List Byte) : Laws.PortOf.Statement (.stageWrite p tag payload) :=
  fun _ h => by cases h; rfl
theorem Laws.PortOf.stageCommit (p : PortId) (tag : Byte) (payload : List Byte) : Laws.PortOf.Statement (.stageCommit p tag payload) :=
  fun _ h => by cases h; rfl
theorem Laws.PortOf.stageDrop (p : PortId) (tag : Byte) (payload : List Byte) : Laws.PortOf.Statement (.stageDrop p tag payload) :=
  fun _ h => by cases h; rfl
theorem Laws.PortOf.slotErase (p : PortId) (tag : Byte) (payload : List Byte) : Laws.PortOf.Statement (.slotErase p tag payload) :=
  fun _ h => by cases h; rfl
theorem Laws.PortOf.slotRead (p : PortId) (tag : Byte) (payload : List Byte) : Laws.PortOf.Statement (.slotRead p tag payload) :=
  fun _ h => by cases h; rfl
theorem Laws.PortOf.slotSignature (p : PortId) (tag : Byte) (payload : List Byte) : Laws.PortOf.Statement (.slotSignature p tag payload) :=
  fun _ h => by cases h; rfl
theorem Laws.PortOf.changeoverArm (p : PortId) (tag : Byte) (payload : List Byte) : Laws.PortOf.Statement (.changeoverArm p tag payload) :=
  fun _ h => by cases h; rfl
theorem Laws.PortOf.changeoverCancel (p : PortId) (tag : Byte) (payload : List Byte) : Laws.PortOf.Statement (.changeoverCancel p tag payload) :=
  fun _ h => by cases h; rfl
theorem Laws.PortOf.trackRead (p : PortId) (tag : Byte) (payload : List Byte) : Laws.PortOf.Statement (.trackRead p tag payload) :=
  fun _ h => by cases h; rfl
theorem Laws.PortOf.registerRead (p : PortId) (tag : Byte) (payload : List Byte) : Laws.PortOf.Statement (.registerRead p tag payload) :=
  fun _ h => by cases h; rfl
theorem Laws.PortOf.verdict (p : PortId) (tag : Byte) (payload : List Byte) : Laws.PortOf.Statement (.verdict p tag payload) :=
  fun _ h => by cases h; rfl
theorem Laws.PortOf.batchClose (p : PortId) (tag : Byte) (payload : List Byte) : Laws.PortOf.Statement (.batchClose p tag payload) :=
  fun _ h => by cases h; rfl
theorem Laws.PortOf.batchPeek (p : PortId) (tag : Byte) (payload : List Byte) : Laws.PortOf.Statement (.batchPeek p tag payload) :=
  fun _ h => by cases h; rfl
theorem Laws.PortOf.batchAck (p : PortId) (tag : Byte) (payload : List Byte) : Laws.PortOf.Statement (.batchAck p tag payload) :=
  fun _ h => by cases h; rfl
theorem Laws.PortOf.satelliteRead (p : PortId) (tag : Byte) (payload : List Byte) : Laws.PortOf.Statement (.satelliteRead p tag payload) :=
  fun _ h => by cases h; rfl
theorem Laws.PortOf.quadratureErrorSample : Laws.PortOf.Statement (.quadratureErrorSample) := fun _ h => by cases h

end Sys2Proof
end

