-- ==== Sys2Proof/Laws/Polling.lean ====
section
/-! SUPPORT. What the end of a transaction does, said once (`endTransaction_ends`): the entry, its notice and its HOLD, and the next poll. -/

namespace Sys2Proof.Machine

/-- What the bus shows of a read whose byte was refused (R150, R151). -/
theorem refused_eq (x : Transaction) (byte : NackByte) : x.refused byte = refusedPhases x.address x.register byte := by
  cases byte <;> rfl

/-- The poll of the first entry due (R149, R150). -/
theorem pollFrom_after (k : Nat) (s : State) :
    pollFrom k s = { s with sat := { s.sat with transaction := s.pollAfter k s.sat.round s.time } } := by
  have : s.nextEntry k = ([0, 1, 2, 3, 4, 5, 6, 7] : List (Fin 8)).find? fun m =>
    decide (k ≤ m.val) && (s.satConfig m).enable && s.sat.round.toNat % (s.satConfig m).divider == 0 := by
    simp only [State.nextEntry, allEntries, State.pollDue, Bool.and_assoc]
  unfold pollFrom State.pollAfter
  rw [this]
  generalize ([0, 1, 2, 3, 4, 5, 6, 7] : List (Fin 8)).find? _ = found
  cases found <;> rfl

/-- Everything a change of an entry does (R155, R157). -/
theorem changeEntry_eq (n : Fin 8) (e : SampleEntry) (s : State) : changeEntry n e s = (
    let old := s.entry n
    let q := (s.satConfig n).consequence
    let changed : Bool := !(e.state == old.state)
    let handed : Bool := changed && q == .hold && (e.state == .tripped || e.state == .offline) && !s.run.causes.satellite
    let causes := { s.run.causes with satellite := true }
    { s with
      sat := { s.sat with entries := s.sat.entries.set n.val e }
      run := if handed then { s.run with causes := causes, permit := false } else s.run
      ports :=
        s.portsAfter
          ((if changed then [.satellite n old.state e.state e.value s.sat.round q] else [])
            ++ if handed then [.halt causes ⟨false, false, false, true, false⟩ CauseSet.empty s.run.runState false] else []) }) := by
  unfold changeEntry
  dsimp only
  by_cases h : e.state = (s.entry n).state
  · rw [if_pos h]; simp [h, State.setEntry, State.portsAfter, State.portAfter, State.port, Ports.get]
  · rw [if_neg h]
    have h' : (!(e.state == (s.entry n).state)) = true := by simpa using h
    rw [h']
    unfold handHold
    by_cases hq : (s.satConfig n).consequence = .hold ∧ (e.state = .tripped ∨ e.state = .offline)
    · rw [if_pos hq]
      have h2 : ((s.satConfig n).consequence == .hold && (e.state == .tripped || e.state == .offline)) = true := by simpa using hq
      cases hs : s.run.causes.satellite <;>
        simp [h2, handCause, CauseSet.has, post, State.setEntry, hs, postHalt, State.setRun, CauseSet.insert, CauseSet.minus,
          permitOf, CauseSet.isEmpty, CauseSet.empty, State.portsAfter, State.portAfter, State.port, Ports.get]
    · rw [if_neg hq]
      have h2 : ((s.satConfig n).consequence == .hold && (e.state == .tripped || e.state == .offline)) = false := by
        rw [Bool.eq_false_iff]; simpa using hq
      simp only [Bool.true_and, h2, Bool.false_and]
      rfl

/-- Everything the end of a transaction does that is not discarded (R149, R150, R155, R157). -/
theorem endTransaction_ends (x : Transaction) (bus : List BusItem) (e : SampleEntry) (s : State) (n : Nat) (hd : x.discard = false) :
    s.PollEndsWith (endTransaction x bus (changeEntry x.entry e { s with freeCount := n })) x e bus := by
  unfold State.PollEndsWith
  simp only [endTransaction, hd, pollFrom_after, changeEntry_eq]
  rfl

end Sys2Proof.Machine
end

