-- ==== Sys2Proof/Laws/Sections.lean ====
section
/-! SUPPORT. The sections field by field, said once: the ranges of R178 to R183 are the checks of a CONFIG_WRITE, a taken content is
held field by field, the cross-field checks of R187 are those of START, and R18 to R20 are the fit check of a slot. -/

namespace Sys2Proof.Machine

theorem u8At_lt (c : List Byte) (i : Nat) : u8At c i < 256 := (c.getD i 0).isLt

theorem u16At_lt (c : List Byte) (i : Nat) : u16At c i < 65536 := by
  have h := u8At_lt c i
  have h' := u8At_lt c (i + 1)
  unfold u16At
  omega

theorem contentLength_eq (x : ConfigSection) : x.length = contentLength x := by cases x <;> rfl

/-- The checks of a CONFIG_WRITE are the ranges of the fields (R178 to R183). -/
theorem checks_eq (x : ConfigSection) (pitch : Nat) (c : List Byte) : x.checks pitch c = fieldRanges pitch c x := by
  have h2 := u16At_lt c
  have h1 := u8At_lt c
  cases x with
  | sat n =>
    have ha : u16At c 4 ≤ 65535 := Nat.le_of_lt_succ (h2 4)
    have hb : u8At c 6 ≤ 255 := Nat.le_of_lt_succ (h1 6)
    have hc : u8At c 1 ≤ 255 := Nat.le_of_lt_succ (h1 1)
    simp [ConfigSection.checks, fieldRanges, within, ha, hb, hc, Bool.or_assoc, Bool.beq_eq_decide_eq]
  | shaft =>
    have ha : u16At c 3 ≤ 65535 := Nat.le_of_lt_succ (h2 3)
    simp [ConfigSection.checks, fieldRanges, within, ha]
  | stations => simp [ConfigSection.checks, fieldRanges, within, List.range_succ]
  | angles => simp [ConfigSection.checks, fieldRanges, List.range_succ]
  | channels =>
    simp [ConfigSection.checks, fieldRanges, within, valveChecks, pulseChecks, List.range_succ]
  | register => simp [ConfigSection.checks, fieldRanges, within]

/-- A taken content is held field by field (R184). -/
theorem write_holds (m : MachineConfig) (x : ConfigSection) (c : List Byte) (hx : ∀ b ∈ x.checks m.checkPitch c, b = true) :
    (m.write x c).Holds c x := by
  cases x with
  | shaft => rfl
  | stations =>
    refine ⟨rfl, fun v => ?_, rfl, rfl, rfl⟩
    match v with
    | 0 | 1 | 2 | 3 => rfl
  | angles => rfl
  | channels =>
    refine ⟨fun v => ?_, rfl, rfl, rfl, rfl, rfl⟩
    match v with
    | 0 | 1 | 2 | 3 => rfl
  | register => rfl
  | sat n =>
    have hq : u8At c 7 ≤ 3 := by
      have := hx (decide (u8At c 7 ≤ 3)) (by simp [ConfigSection.checks])
      simpa using this
    simp only [MachineConfig.Holds, MachineConfig.write, Vector.getElem_set_self]
    refine ⟨rfl, rfl, rfl, rfl, rfl, rfl, ?_, rfl⟩
    simp only [satConfigOf]
    generalize u8At c 7 = k at hq
    interval_cases k <;> rfl

/-- A taken write leaves every other section as it was (R184). -/
theorem write_keepsOthers (m : MachineConfig) (x : ConfigSection) (c : List Byte) : (m.write x c).KeepsOthers m x := by
  have hw : ∀ y : ConfigSection, y ≠ x → (m.write x c).written[y.index.val] = m.written[y.index.val] := by
    intro y hy
    have hm : (m.write x c).written = m.written.set x.index.val true := by cases x <;> rfl
    have hi : x.index.val ≠ y.index.val := by
      intro h
      apply hy
      cases x <;> cases y <;> simp_all [ConfigSection.index] <;> omega
    simp only [hm]
    exact Vector.getElem_set_ne _ _ hi
  refine ⟨?_, ?_, ?_, ?_, ?_, fun n hn => ?_, hw⟩
  · cases x <;> simp [MachineConfig.write]
  · cases x <;> simp [MachineConfig.write]
  · cases x <;> simp [MachineConfig.write]
  · cases x <;> simp [MachineConfig.write]
  · cases x <;> simp [MachineConfig.write]
  · cases x with
    | sat k =>
      have hk : k.val ≠ n.val := fun h => hn (by rw [Fin.ext h])
      simp only [MachineConfig.write]
      exact Vector.getElem_set_ne _ _ hk
    | _ => rfl

/-- A section's content in the layout of R207. -/
theorem configBytes_eq (m : MachineConfig) (x : ConfigSection) : m.sectionBytes x = layOut (m.sectionItems x) := by
  cases x <;>
    simp [MachineConfig.sectionBytes, MachineConfig.sectionItems, valveConfigBytes, pulseConfigBytes, satConfigBytes, layOut_cons,
      layOut_nil, item1_bytes, item2_bytes, flagItem_bytes]

/-! ## Round trip (R184, R186) -/

theorem byteOf_u8At (c : List Byte) (i : Nat) : byteOf (u8At c i) = [c.getD i 0] := by simp [byteOf, u8At]

theorem bytes2_u16At (c : List Byte) (i : Nat) : bytes2 (u16At c i) = [c.getD i 0, c.getD (i + 1) 0] := by
  have h : u8At c (i + 1) < 256 := (c.getD (i + 1) 0).isLt
  have h1 : u16At c i / 256 = u8At c i := by unfold u16At; omega
  have h2 : BitVec.ofNat 8 (u16At c i) = BitVec.ofNat 8 (u8At c (i + 1)) := byte_congr (by unfold u16At; omega)
  rw [bytes2, h1, h2]
  simp [u8At]

theorem flagByte_u8At {c : List Byte} {i : Nat} (h : u8At c i ≤ 1) : flagByte (flagOfCode (u8At c i)) = [c.getD i 0] := by
  have hb : c.getD i 0 = BitVec.ofNat 8 (u8At c i) := by simp [u8At]
  rw [hb]
  generalize u8At c i = k at h
  interval_cases k <;> rfl

/-- A content is its bytes by index. -/
theorem content_eq {c : List Byte} {n : Nat} (h : c.length = n) : (List.range n).map (fun i => c.getD i 0) = c := by
  subst h
  apply List.ext_getElem
  · simp
  · intro i h1 h2
    simp at h1
    simp [List.getD_eq_getElem?_getD, h1]

/-- A taken content reads back byte for byte (R184, R186). -/
theorem write_reads_back (m : MachineConfig) (x : ConfigSection) (c : List Byte) (hl : c.length = contentLength x)
    (hx : ∀ b ∈ x.checks m.checkPitch c, b = true) : (m.write x c).sectionBytes x = c := by
  have hr := content_eq hl
  cases x with
  | shaft =>
    have h := hx (decide (u8At c 2 ≤ 1)) (by simp [ConfigSection.checks])
    have hs : byteOf (if u8At c 2 = 0 then EncoderSense.normal else .inverted).code = [c.getD 2 0] := by
      rw [← byteOf_u8At]
      simp only [decide_eq_true_eq] at h
      generalize u8At c 2 = k at h
      interval_cases k <;> rfl
    simp only [MachineConfig.sectionBytes, MachineConfig.write, shaftConfigOf, bytes2_u16At, hs]
    simpa [contentLength, List.range_succ] using hr
  | stations =>
    simp only [MachineConfig.sectionBytes, MachineConfig.write, stationConfigOf, byteOf_u8At]
    simpa [contentLength, List.range_succ, byteOf_u8At] using hr
  | angles =>
    simp only [MachineConfig.sectionBytes, MachineConfig.write, angleConfigOf, bytes2_u16At]
    simpa [contentLength, List.range_succ] using hr
  | channels =>
    have hf : ∀ i, decide (u8At c i ≤ 1) ∈ ConfigSection.channels.checks m.checkPitch c →
        flagByte (flagOfCode (u8At c i)) = [c.getD i 0] :=
      fun i hi => flagByte_u8At (by simpa using hx _ hi)
    have h6 := hf 6 (by simp [ConfigSection.checks, valveChecks])
    have h13 := hf 13 (by simp [ConfigSection.checks, valveChecks])
    have h20 := hf 20 (by simp [ConfigSection.checks, valveChecks])
    have h27 := hf 27 (by simp [ConfigSection.checks, valveChecks])
    have h32 := hf 32 (by simp [ConfigSection.checks, pulseChecks])
    have h37 := hf 37 (by simp [ConfigSection.checks, pulseChecks])
    have h42 := hf 42 (by simp [ConfigSection.checks, pulseChecks])
    have h45 := hf 45 (by simp [ConfigSection.checks])
    simp [MachineConfig.sectionBytes, MachineConfig.write, channelConfigOf, valveConfigAt, pulseConfigAt, valveConfigBytes,
      pulseConfigBytes, bytes2_u16At, h6, h13, h20, h27, h32, h37, h42, h45]
    simpa [contentLength, List.range_succ] using hr
  | register =>
    simp only [MachineConfig.sectionBytes, MachineConfig.write, registerConfigOf, bytes2_u16At]
    simpa [contentLength, List.range_succ] using hr
  | sat n =>
    have h3 := hx (decide (u8At c 3 ≤ 1)) (by simp [ConfigSection.checks])
    have h7 := hx (decide (u8At c 7 ≤ 3)) (by simp [ConfigSection.checks])
    have h8 := hx (decide (u8At c 8 ≤ 1)) (by simp [ConfigSection.checks])
    simp only [decide_eq_true_eq] at h3 h7 h8
    have hs : byteOf (satConfigOf c).sense.code = [c.getD 3 0] := by
      rw [← byteOf_u8At]
      simp only [satConfigOf]
      generalize u8At c 3 = k at h3
      interval_cases k <;> rfl
    have hq : byteOf (satConfigOf c).consequence.code = [c.getD 7 0] := by
      rw [← byteOf_u8At]
      simp only [satConfigOf]
      generalize u8At c 7 = k at h7
      interval_cases k <;> rfl
    have hb : satConfigBytes (satConfigOf c) = c := by
      unfold satConfigBytes
      rw [hs, hq]
      simp only [satConfigOf, byteOf_u8At, bytes2_u16At, flagByte_u8At h8]
      simpa [contentLength, List.range_succ] using hr
    simpa [MachineConfig.sectionBytes, MachineConfig.write] using hb

/-! ## The fit check (R18 to R20) -/

theorem windowFits_iff (pitch e w t : Nat) : windowFits pitch e w t = true ↔ WindowFits pitch e w t := by
  simp [windowFits, WindowFits, and_assoc]

theorem segmentsFrom_iff (pitch : Nat) (floor : Option Nat) (xs : List Segment) :
    segmentsFrom pitch floor xs = true ↔
      (∀ x ∈ xs, x.onAngle < x.offAngle ∧ x.offAngle < pitch) ∧ (xs.IsChain fun x y => x.offAngle < y.onAngle)
        ∧ ∀ a ∈ floor, ∀ x ∈ xs.head?, a < x.onAngle := by
  induction xs generalizing floor with
  | nil => simp [segmentsFrom]
  | cons x xs ih =>
    simp only [segmentsFrom, Bool.and_eq_true, ih, decide_eq_true_eq, List.isChain_cons, List.forall_mem_cons]
    cases floor <;> simp <;> tauto

theorem gumFits_iff (pitch : Nat) (xs : List Segment) : gumFits pitch xs = true ↔ SegmentsFit pitch xs := by
  simp [gumFits, SegmentsFit, segmentsFrom_iff]

/-- The fit check finds the first section that does not fit (R20). -/
theorem firstUnfit_eq_find (c : Profile) (pitch : Nat) (fits : ProfileSection → Bool) (hf : ∀ x, fits x = true ↔ c.Fits pitch x) :
    c.firstUnfit pitch = ([.print, .patch, .gum 0, .gum 1, .gum 2, .gum 3] : List ProfileSection).find? fun x => !fits x := by
  have h1 : fits .print = c.print.fits pitch := by rw [Bool.eq_iff_iff, hf]; exact (windowFits_iff _ _ _ _).symm
  have h2 : fits .patch = (match c.patch with
      | none => true
      | some x => x.fits pitch) := by
    rw [Bool.eq_iff_iff, hf]
    cases h : c.patch with
    | none => simp [Profile.Fits, h]
    | some x => simp [Profile.Fits, h, PatchSection.fits, windowFits_iff]
  have h3 : ∀ v : Fin 4, fits (.gum v) = gumSectionFits pitch c.gum[v.val] := by
    intro v
    rw [Bool.eq_iff_iff, hf]
    cases h : c.gum[v.val] with
    | none => simp [Profile.Fits, h, gumSectionFits]
    | some x => simp [Profile.Fits, h, gumSectionFits, gumFits_iff]
  unfold Profile.firstUnfit
  simp only [List.find?_cons, List.find?_nil, h1, h2, h3, List.findSome?_cons, List.findSome?_nil]
  generalize gumSectionFits pitch c.gum[(0 : Fin 4).val] = g0
  generalize gumSectionFits pitch c.gum[(1 : Fin 4).val] = g1
  generalize gumSectionFits pitch c.gum[(2 : Fin 4).val] = g2
  generalize gumSectionFits pitch c.gum[(3 : Fin 4).val] = g3
  generalize c.print.fits pitch = b1
  cases hq : c.patch with
  | none => cases b1 <;> cases g0 <;> cases g1 <;> cases g2 <;> cases g3 <;> rfl
  | some x =>
    cases hb : x.fits pitch <;> simp only [hb] <;>
      cases b1 <;> cases g0 <;> cases g1 <;> cases g2 <;> cases g3 <;> rfl

theorem firstUnfit_of_slotFits {s : State} {i : Fin 4} (h : s.SlotFits i) : s.profiles.firstUnfit s.pitch i = none := by
  classical
  cases hc : s.profiles.contentOf i with
  | none => simp [Profiles.firstUnfit, hc]
  | some c =>
    simp only [Profiles.firstUnfit, hc]
    rw [firstUnfit_eq_find c s.pitch (fun x => decide (c.Fits s.pitch x)) (by simp), List.find?_eq_none]
    intro x _
    simpa using h c x hc

theorem firstUnfit_of_firstUnfit {s : State} {i : Fin 4} {part : ProfileSection} (h : s.FirstUnfit i part) :
    s.profiles.firstUnfit s.pitch i = some part := by
  classical
  obtain ⟨c, hc, hn, hl⟩ := h
  have hc : s.profiles.contentOf i = some c := hc
  simp only [Profiles.firstUnfit, hc]
  rw [firstUnfit_eq_find c s.pitch (fun x => decide (c.Fits s.pitch x)) (by simp)]
  have hlt : ∀ x : ProfileSection, x.code < part.code → (!decide (c.Fits s.pitch x)) = false := fun x hx => by simp [hl x hx]
  have hp : (!decide (c.Fits s.pitch part)) = true := by simp [hn]
  match part with
  | .header => exact absurd trivial hn
  | .print => simp only [List.find?_cons, hp]
  | .patch => simp only [List.find?_cons, hlt .print (by decide), hp]
  | .gum 0 => simp only [List.find?_cons, hlt .print (by decide), hlt .patch (by decide), hp]
  | .gum 1 => simp only [List.find?_cons, hlt .print (by decide), hlt .patch (by decide), hlt (.gum 0) (by decide), hp]
  | .gum 2 =>
    simp only [List.find?_cons, hlt .print (by decide), hlt .patch (by decide), hlt (.gum 0) (by decide), hlt (.gum 1) (by decide), hp]
  | .gum 3 =>
    simp only [List.find?_cons, hlt .print (by decide), hlt .patch (by decide), hlt (.gum 0) (by decide), hlt (.gum 1) (by decide),
      hlt (.gum 2) (by decide), hp]

/-! ## START's checks (R187) -/

/-- START's checks are those of R187. -/
theorem startChecks_eq (c : MachineConfig) : c.startChecks = c.crossChecks := by
  simp [MachineConfig.startChecks, MachineConfig.crossChecks]

/-- The first failing check of a list, by its number from 1. -/
theorem firstFailing_eq_some {checks : List Bool} {k : Nat} (h : ∀ j < k, checks[j]? = some true) (hk : checks[k]? = some false) :
    firstFailing checks = some (k + 1) := by
  induction checks generalizing k with
  | nil => simp at hk
  | cons b bs ih =>
    cases k with
    | zero =>
      simp at hk
      simp [firstFailing, hk]
    | succ k =>
      have hb : b = true := by simpa using h 0 (by omega)
      have := ih (k := k) (fun j hj => by simpa using h (j + 1) (by omega)) (by simpa using hk)
      simp [firstFailing, hb, this]

theorem firstFailing_eq_none {checks : List Bool} (h : ∀ b ∈ checks, b = true) : firstFailing checks = none := by
  induction checks with
  | nil => rfl
  | cons b bs ih => simp [firstFailing, h b (by simp), ih fun x hx => h x (by simp [hx])]

end Sys2Proof.Machine
end

