-- ==== Sys2Proof/Laws/Status.lean ====
section
/-! SUPPORT. The STATUS and REGISTER_READ answers are their items laid out in order, block by block (R102, R103, R175). -/

namespace Sys2Proof.Machine

/-- R162 to R168: run state, causes, PERMIT and the first unwritten section. -/
theorem runItems_layOut (s : State) : layOut s.runItems = statusRun s := by
  simp only [State.runItems, statusRun, layOut_append, layOut_cons, layOut_nil, item1_bytes, flagItem_bytes, optItem1_layOut,
    unwritten_eq, optionalItem_map, Option.isNone_map, List.append_nil, List.append_assoc]

theorem shaftItems_layOut (s : State) (v : Nat) (hv : bytes2 v = cyclesPerMinuteBytes s.shaft.cyclesPerMinute) :
    layOut (s.shaftItems v) = statusShaft s := by
  have h4 : ∀ n, bytes4 (n % 2 ^ 32) = bytes4 n := by
    intro n; simp only [bytes4, bytes2]
    have := byte_congr (a := n % 2^32 / 65536 / 256) (b := n / 65536 / 256) (by omega)
    have h2 := byte_congr (a := n % 2^32 / 65536) (b := n / 65536) (by omega)
    have h3 := byte_congr (a := n % 2^32 % 65536 / 256) (b := n % 65536 / 256) (by omega)
    have h4 := byte_congr (a := n % 2^32 % 65536) (b := n % 65536) (by omega)
    rw [this, h2, h3, h4]
  have hc : bytes4 (if s.shaft.homed then s.shaft.position / s.pitch + 1 else 0)
      = serialBytes (if s.shaft.homed then cycleOfPosition s.pitch s.shaft.position else 0) := by
    cases s.shaft.homed
    · rfl
    · simp only [if_true, serialBytes, cycleOfPosition, BitVec.toNat_ofNat, h4]
  simp only [State.shaftItems, statusShaft, layOut_cons, layOut_nil, item1_bytes, item2_bytes, item4_bytes, item6_bytes,
    signedItem4_bytes, flagItem_bytes, hv, hc, List.append_nil, List.append_assoc]

theorem armItems_layOut (x : Option ChangeoverArm) :
    layOut (armItems x) = optionalItem 7 (fun a : ChangeoverArm => byteOf a.slot.val ++ triggerBytes a.trigger) x := by
  cases x with
  | none => rfl
  | some a => rcases a with ⟨i, t⟩; cases t <;> simp [armItems, layOut_cons, layOut_nil, item1_bytes, item4_bytes, flagItem_bytes,
    optionalItem, triggerBytes, byteOf, serialBytes]

theorem profileItems_layOut (s : State) : layOut s.profileItems = statusProfiles s := by
  simp only [State.profileItems, statusProfiles, perSlot, Staging.writtenMask, layOut_append, layOut_cons, layOut_nil, item1_bytes,
    flagItem_bytes, optItem4_layOut, optItem2_layOut, armItems_layOut, optionalItem_map, List.map_cons, List.map_nil,
    List.flatMap_cons, List.flatMap_nil, List.append_nil, List.append_assoc, Profiles.slot, serialBytes]
  rfl

theorem trackItems_layOut (s : State) : layOut s.trackItems = statusTrack s := by
  simp only [State.trackItems, statusTrack, layOut_append, layOut_cons, layOut_nil, item1_bytes, item4_bytes, flagItem_bytes,
    optItem4_layOut, optionalItem_map, List.append_nil, List.append_assoc, serialBytes]
  rfl

theorem schedItems_layOut (s : State) : layOut s.schedItems = statusSched s := by
  have hk :
      layOut
          (if (s.slot .kick).phase = .armed then [⟨1, 1⟩, ⟨4, (s.slot .kick).cycle.toNat⟩, ⟨6, (s.slot .kick).target⟩]
          else [⟨1, 0⟩, ⟨10, 0⟩])
        = kickBytes (s.slot .kick) := by
    unfold kickBytes
    split <;> simp [layOut_cons, layOut_nil, item1_bytes, item4_bytes, item6_bytes, item_zero_bytes, optionalItem, byteOf, serialBytes]
  simp only [State.schedItems, statusSched, layOut_append, layOut_cons, layOut_nil, item1_bytes, item4_bytes, flagItem_bytes, hk,
    List.map_cons, List.map_nil, List.flatMap_cons, List.flatMap_nil, List.append_nil, List.append_assoc, valveAdvances, advanceOf,
    Outputs.mask]
  rfl

theorem batchItems_layOut (s : State) : layOut s.batchItems = statusBatch s := by
  simp only [State.batchItems, statusBatch, State.openBatch, layOut_append, layOut_cons, layOut_nil, item1_bytes, item4_bytes,
    flagItem_bytes, optItem4_layOut, optItem2_layOut, optItem1_layOut, optionalItem_map, List.append_nil, List.append_assoc,
    serialBytes]

theorem satItems_layOut (s : State) : layOut s.satItems = statusSatellite s := by
  simp only [State.satItems, statusSatellite, layOut_append, layOut_cons, layOut_nil, item1_bytes, item4_bytes, flagItem_bytes,
    allEntries, List.map_cons, List.map_nil, List.flatMap_cons, List.flatMap_nil, List.append_nil, List.append_assoc, serialBytes,
    State.forceMask]

/-- R175: the STATUS answer is its items, `v` standing for the two bytes of the cycles per minute. -/
theorem statusItems_layOut (s : State) (v : Nat) (hv : bytes2 v = cyclesPerMinuteBytes s.shaft.cyclesPerMinute) :
    layOut (s.statusItems v) = statusBytes s := by
  simp only [State.statusItems, statusBytes, layOut_append, runItems_layOut, shaftItems_layOut s v hv, profileItems_layOut,
    trackItems_layOut, schedItems_layOut, batchItems_layOut, satItems_layOut, layOut_cons, layOut_nil, item1_bytes, signedItem2_bytes,
    statusRegister, List.append_nil, List.append_assoc]

theorem channelItems_layOut (x : Channel) (m : Nat) : layOut (x.items m) = channelBytes x m := by
  have : layOut x.recordItems = lastBytes x.last ++ windowBytes x.window := by
    unfold Channel.recordItems
    rw [layOut_append]
    congr 1
    · cases x.last <;> simp [layOut_cons, layOut_nil, item1_bytes, item2_bytes, item4_bytes, signedItem2_bytes, lastBytes, serialBytes]
    · cases x.window with
      | none => rfl
      | some w => simp [layOut_cons, item1_bytes, item4_bytes, optItem2_layOut, windowBytes, serialBytes]
  simp only [Channel.items, channelBytes, layOut_append, layOut_cons, layOut_nil, item1_bytes, item2_bytes, signedItem2_bytes, this,
    List.append_nil, List.append_assoc]

theorem knifeItems_layOut (ks : List KnifeEntry) :
    layOut
        ([⟨1, ks.length⟩] ++ (ks.take 2).flatMap (fun k => [⟨4, k.serial.toNat⟩, ⟨1, k.outcome.code⟩])
          ++ [⟨5 * (2 - ks.length), 0⟩])
      = knifeListBytes ks := by
  unfold knifeListBytes shiftOut
  match ks with
  | [] => rfl
  | [a] => simp [layOut_cons, layOut_nil, item1_bytes, item4_bytes, item_zero_bytes, byteOf, serialBytes, bytes4, bytes2]
  | a :: b :: rest => simp [layOut_cons, layOut_nil, item1_bytes, item4_bytes, item_zero_bytes, byteOf, serialBytes, bytes4, bytes2]

/-- R102: the REGISTER_READ answer is its items. -/
theorem registerItems_layOut (s : State) : layOut s.registerItems = registerBytes s := by
  have := knifeItems_layOut s.reg.knives
  simp only [layOut_append] at this
  simp only [State.registerItems, registerBytes, layOut_append, channelItems_layOut, optItem4_layOut, optionalItem_map,
    List.append_assoc, serialBytes] at this ⊢
  rw [this]

end Sys2Proof.Machine
end

