-- ==== Sys2Proof/Laws/Timing.lean ====
section
/-! SUPPORT. What the time base takes on its way (R11, R83, R148, R151), said once: `advanceTime_timedTo`. -/

namespace Sys2Proof.Machine

/-- The command whose effect a timed event has. -/
def TimedEvent.command : TimedEvent → Instr
  | .pulseEnd ch => .pulseEnd ch
  | .timeout => .transactionTimeout
  | .roundStart => .roundStart

theorem mem_momentOf {m : Moment} {e : TimedEvent} {t : Option Nat} : m ∈ momentOf e t ↔ m.event = e ∧ t = some m.time := by
  rcases m with ⟨time, event⟩
  cases t with
  | none => simp [momentOf]
  | some t => simp [momentOf, and_comm, eq_comm]

/-- The moments to come are those the spec awaits. -/
theorem awaits_iff {s : State} {event : Instr} {moment : Nat} :
    s.Awaits event moment ↔ ∃ m ∈ s.moments, event = m.event.command ∧ moment = m.time := by
  constructor
  · rintro (⟨ch, rfl, h⟩ | ⟨rfl, x, h, rfl⟩ | ⟨rfl, hr, h⟩)
    · refine ⟨⟨moment, .pulseEnd ch⟩, ?_, rfl, rfl⟩
      simp only [State.moments, List.mem_append, mem_momentOf]
      cases ch <;> simp_all [Sched.pulse]
    · refine ⟨⟨x.start + 1000, .timeout⟩, ?_, rfl, rfl⟩
      simp [State.moments, mem_momentOf, State.timeoutAt, h]
    · refine ⟨⟨moment, .roundStart⟩, ?_, rfl, rfl⟩
      have : s.roundAt = some moment := by
        unfold State.roundAt
        rw [if_pos hr]
        rcases h with h | ⟨h, rfl⟩ <;> simp [h]
      simp [State.moments, mem_momentOf, this]
  · rintro ⟨m, hm, rfl, rfl⟩
    simp only [State.moments, List.mem_append, mem_momentOf] at hm
    rcases hm with (((⟨he, h⟩ | ⟨he, h⟩) | ⟨he, h⟩) | ⟨he, h⟩) | ⟨he, h⟩
    · exact .inl ⟨.patch, by rw [he]; rfl, h⟩
    · exact .inl ⟨.camera, by rw [he]; rfl, h⟩
    · exact .inl ⟨.kick, by rw [he]; rfl, h⟩
    · obtain ⟨x, hx, ht⟩ := Option.map_eq_some_iff.mp h
      exact .inr (.inl ⟨by rw [he]; rfl, x, hx, ht.symm⟩)
    · refine .inr (.inr ⟨by rw [he]; rfl, ?_⟩)
      unfold State.roundAt at h
      split at h
      · rename_i hr
        refine ⟨hr, ?_⟩
        split at h
        · rename_i t ht; cases h; exact .inl ht
        · rename_i ht
          exact .inr ⟨ht, by simpa using h.symm⟩
      · cases h

/-- What `earliest` answers: the earliest moment up to the limit, or that none is. -/
theorem earliest_spec (limit : Nat) (ms : List Moment) :
    match earliest limit ms with
    | some m => m ∈ ms ∧ m.time ≤ limit ∧ ∀ x ∈ ms, m.time ≤ x.time
    | none => ∀ x ∈ ms, limit < x.time := by
  induction ms with
  | nil => simp [earliest]
  | cons m ms ih =>
    unfold earliest
    cases h : earliest limit ms with
    | none =>
      rw [h] at ih
      dsimp only at ih ⊢
      by_cases ht : m.time ≤ limit
      · rw [if_pos ht]
        refine ⟨by simp, ht, fun x hx => ?_⟩
        rcases List.mem_cons.mp hx with rfl | hx
        · exact Nat.le_refl _
        · have := ih x hx; omega
      · rw [if_neg ht]
        intro x hx
        rcases List.mem_cons.mp hx with rfl | hx
        · omega
        · exact ih x hx
    | some b =>
      rw [h] at ih
      obtain ⟨h1, h2, h3⟩ := ih
      dsimp only
      by_cases hb : m.time ≤ b.time
      · rw [if_pos hb]
        refine ⟨by simp, Nat.le_trans hb h2, fun x hx => ?_⟩
        rcases List.mem_cons.mp hx with rfl | hx
        · exact Nat.le_refl _
        · exact Nat.le_trans hb (h3 x hx)
      · rw [if_neg hb]
        refine ⟨by simp [h1], h2, fun x hx => ?_⟩
        rcases List.mem_cons.mp hx with rfl | hx
        · omega
        · exact h3 x hx

/-! ## One event (R83, R148, R151) -/

theorem passTime_eq (t : Nat) (s : State) : passTime t s = s.atMoment t := rfl

/-- The next round is not reached by a passing of time up to its moment. -/
theorem atMoment_awaitsRound {s : State} {t m : Nat} (h : s.roundAt = some m) (ht : t ≤ m) : (s.atMoment t).roundAt = some m := by
  unfold State.roundAt at h ⊢
  unfold State.atMoment
  split at h
  · rename_i hr
    cases hf : s.sat.firstRound with
    | some r => simpa [hr, hf] using h
    | none =>
      simp only [hf, Option.some.injEq] at h
      simp only [hr, hf, Option.isNone_none, Bool.and_self, if_true, Option.some.injEq]
      have : Nat.max s.time t = max s.time t := rfl
      omega
  · cases h

/-- Taking an event at its moment has the effect of its command. -/
theorem takeTimed_exec {s : State} {m : Moment} (h : m ∈ s.moments) :
    exec m.event.command (s.atMoment m.time) = .next (takeTimed m.event (passTime m.time s)) := by
  have hmax : m.time ≤ (s.atMoment m.time).time := Nat.le_max_right _ _
  rcases m with ⟨t, event⟩
  simp only [State.moments, List.mem_append, mem_momentOf] at h
  rcases h with (((⟨rfl, h⟩ | ⟨rfl, h⟩) | ⟨rfl, h⟩) | ⟨rfl, h⟩) | ⟨rfl, h⟩
  · have : (s.atMoment t).sched.pulse .patch = some t := h
    simp only [TimedEvent.command, exec, execPulseEnd, this, if_pos hmax]
    rfl
  · have : (s.atMoment t).sched.pulse .camera = some t := h
    simp only [TimedEvent.command, exec, execPulseEnd, this, if_pos hmax]
    rfl
  · have : (s.atMoment t).sched.pulse .kick = some t := h
    simp only [TimedEvent.command, exec, execPulseEnd, this, if_pos hmax]
    rfl
  · have : (s.atMoment t).timeoutAt = some t := by
      rw [← h]
      unfold State.timeoutAt State.atMoment
      dsimp only
      split <;> rfl
    simp only [TimedEvent.command, exec, execTransactionTimeout, this, if_pos hmax]
    rfl
  · have : (s.atMoment t).roundAt = some t := atMoment_awaitsRound h (Nat.le_refl _)
    simp only [TimedEvent.command, exec, execRoundStart, this, if_pos hmax]
    rfl

/-! ## All events of one advance -/

/-- What the time base takes on its way to `limit`. -/
theorem advanceTime_timedBy (fuel limit : Nat) (s : State) :
    ∃ k u, k ≤ fuel ∧ State.TimedBy limit k s u ∧ (k < fuel → ∀ e m, u.Awaits e m → limit < m)
      ∧ advanceTime fuel limit s = u.atMoment limit := by
  induction fuel generalizing s with
  | zero => exact ⟨0, s, Nat.le_refl _, rfl, by omega, rfl⟩
  | succ fuel ih =>
    have hs := earliest_spec limit s.moments
    unfold advanceTime
    cases h : earliest limit s.moments with
    | none =>
      rw [h] at hs
      refine ⟨0, s, by omega, rfl, fun _ e m ha => ?_, rfl⟩
      obtain ⟨x, hx, -, rfl⟩ := awaits_iff.mp ha
      exact hs x hx
    | some m =>
      rw [h] at hs
      obtain ⟨h1, h2, h3⟩ := hs
      obtain ⟨k, u, hk, hu, hn, he⟩ := ih (takeTimed m.event (passTime m.time s))
      refine ⟨k + 1, u, by omega,
        ⟨_, ⟨m.event.command, m.time, awaits_iff.mpr ⟨m, h1, rfl, rfl⟩, h2, ?_, takeTimed_exec h1⟩, hu⟩,
        fun hk' => hn (by omega), he⟩
      intro e t ha
      obtain ⟨x, hx, -, rfl⟩ := awaits_iff.mp ha
      exact h3 x hx

/-- The time base takes every event on its way to `limit` at its moment, in the order of time. -/
theorem advanceTime_timedTo (limit : Nat) (s : State) : s.TimedTo (advanceTime timedLimit limit s) limit := by
  obtain ⟨k, u, h1, h2, h3, h4⟩ := advanceTime_timedBy timedLimit limit s
  exact ⟨k, u, h1, h2, h3, h4⟩

/-- The moment at which a round is awaited is that of the next round (R148). -/
theorem roundAt_of_awaits {s : State} {t : Nat} (h : s.Awaits .roundStart t) : s.roundAt = some t := by
  rcases h with ⟨c, hc, _⟩ | ⟨hc, _⟩ | ⟨_, hr, h⟩
  · cases hc
  · cases hc
  · unfold State.roundAt
    rw [if_pos hr]
    rcases h with h | ⟨h, rfl⟩ <;> simp [h]

/-! ## One advance of at most 1 ms leaves nothing due -/

/-- Whether a moment lies at or before `limit`, as a count. -/
def dueBy (limit : Nat) : Option Nat → Nat
  | none => 0
  | some t => if t ≤ limit then 1 else 0

/-- How many events an advance from `base` can still take: a pulse ends once, a round starts once and may put a transaction on the bus,
and a transaction that began before `base` may be followed by one that times out at `limit` itself. -/
def eventsLeft (base limit : Nat) (s : State) : Nat :=
  dueBy limit s.sched.patchPulse + dueBy limit s.sched.cameraPulse + dueBy limit s.sched.kickPulse + 2 * dueBy limit s.roundAt
    + match s.sat.transaction with
      | none => 0
      | some x => if x.start + 1000 ≤ limit then if x.start < base then 2 else 1 else 0

theorem atMoment_sched (s : State) (t : Nat) : (s.atMoment t).sched = s.sched := rfl

theorem atMoment_time (s : State) (t : Nat) : (s.atMoment t).time = max s.time t := rfl

theorem atMoment_transaction (s : State) (t : Nat) : (s.atMoment t).sat.transaction = s.sat.transaction := by
  unfold State.atMoment; dsimp only; split <;> rfl

/-- Time passed up to a moment before which no round is due leaves the next round where it was. -/
theorem atMoment_roundAt {s : State} {t : Nat} (h : ∀ m, s.roundAt = some m → t ≤ m) : (s.atMoment t).roundAt = s.roundAt := by
  cases hr : s.roundAt with
  | some m => exact atMoment_awaitsRound hr (h m hr)
  | none =>
    have hn : s.sat.running = false := by
      unfold State.roundAt at hr
      split at hr
      · split at hr <;> cases hr
      · rename_i h; simpa using h
    simp [State.roundAt, State.atMoment, hn]

theorem pollAfter_start {s : State} {k : Nat} {round : Serial} {time : Nat} {y : Transaction} (h : s.pollAfter k round time = some y) :
    y.start = time := by
  unfold State.pollAfter at h
  obtain ⟨n, -, rfl⟩ := Option.map_eq_some_iff.mp h
  rfl

/-- What the end of a transaction leaves (R149, R160). -/
theorem endTransaction_eq (t : Transaction) (bus : List BusItem) (s : State) :
    endTransaction t bus s
      = { s with
          sat :=
            { s.sat with
              transaction :=
                if t.discard then if s.sat.pollWaiting then s.pollAfter 0 s.sat.round s.time else none
                else s.pollAfter (t.entry.val + 1) s.sat.round s.time
              pollWaiting := s.sat.pollWaiting && !t.discard
              bus := bus } } := by
  unfold endTransaction
  simp only [pollFrom_after]
  cases hd : t.discard <;> cases hw : s.sat.pollWaiting <;> simp <;> rfl

/-- What the bus shows of a read that timed out (R151). -/
theorem timedOut_isTimedOut (x : Transaction) (n : Nat) : IsTimedOut x.address x.register (x.timedOut n) := by
  have hl : ∀ xs : List BusItem,
      lastRefused xs = xs ∨ ∃ ys byte a, xs = ys ++ [.sent byte a] ∧ lastRefused xs = ys ++ [.sent byte false] := by
    intro xs
    induction xs with
    | nil => exact .inl rfl
    | cons y ys ih =>
      cases ys with
      | nil =>
        cases y with
        | sent byte a => exact .inr ⟨[], byte, a, rfl, rfl⟩
        | _ => exact .inl rfl
      | cons z zs =>
        have he : lastRefused (y :: z :: zs) = y :: lastRefused (z :: zs) := by cases y <;> rfl
        rw [he]
        rcases ih with h | ⟨as, byte, a, h1, h2⟩
        · exact .inl (by rw [h])
        · exact .inr ⟨y :: as, byte, a, by rw [h1]; rfl, by rw [h2]; rfl⟩
  refine ⟨Config.busReached n % 8, BitVec.ofNat 8 ((Config.busData n).toNat / 256), BitVec.ofNat 8 (Config.busData n).toNat, _,
    Config.busFreed n, ?_, rfl⟩
  generalize hr : (readPhases x.address x.register (BitVec.ofNat 8 ((Config.busData n).toNat / 256))
    (BitVec.ofNat 8 (Config.busData n).toNat)).take (Config.busReached n % 8) = reached
  have hp : (x.phases (BitVec.ofNat 8 ((Config.busData n).toNat / 256)) (BitVec.ofNat 8 (Config.busData n).toNat)).take
    (Config.busReached n % 8) = reached := hr
  rw [hp]
  split
  · rcases hl reached with h | ⟨xs, byte, a, h1, h2⟩
    · exact .inl h
    · refine .inr ⟨xs, byte, ?_, h2⟩
      have hm : BusItem.sent byte a ∈ reached := by rw [h1]; simp
      rw [← hr] at hm
      have := List.mem_of_mem_take hm
      simp only [readPhases, List.mem_cons, BusItem.sent.injEq, reduceCtorEq, false_or, or_false, List.not_mem_nil] at this
      have ha : a = true := by rcases this with h | h | h <;> exact h.2
      rw [h1, ha]
  · exact .inl rfl

theorem unanswered_eq (e : SampleEntry) : unansweredEntry e = e.unanswered := by
  have hc : countUpTo 255 e.failure = Nat.min 255 (e.failure + 1) := by
    have hm : Nat.min 255 (e.failure + 1) = min 255 (e.failure + 1) := rfl
    unfold countUpTo
    split <;> omega
  unfold unansweredEntry SampleEntry.unanswered
  rw [hc]
  generalize Nat.min 255 (e.failure + 1) = k
  by_cases h : k = 3 <;> by_cases h' : e.state = .offline <;> simp [h, h']

/-- What a timeout leaves (R149, R151, R154): the entry of a transaction without the discard mark has its no-answer, and any transaction
then on the bus began now. -/
theorem timeOut_leaves {s : State} {x : Transaction} (h : s.sat.transaction = some x) :
    (timeOutTransaction s).sched = s.sched ∧ (timeOutTransaction s).time = s.time ∧ (timeOutTransaction s).roundAt = s.roundAt
      ∧ (timeOutTransaction s).sat.round = s.sat.round ∧ (timeOutTransaction s).sat.phase = s.sat.phase
      ∧ (timeOutTransaction s).sat.firstRound = s.sat.firstRound ∧ (timeOutTransaction s).sat.running = s.sat.running
      ∧ (∀ y, (timeOutTransaction s).sat.transaction = some y → y.start = s.time)
      ∧ IsTimedOut x.address x.register (timeOutTransaction s).sat.bus
      ∧ ∀ n, (timeOutTransaction s).entry n = if n = x.entry ∧ x.discard = false then (s.entry n).unanswered else s.entry n := by
  have hb := timedOut_isTimedOut x s.freeCount
  cases hd : x.discard
  · have he : timeOutTransaction s = endTransaction x (x.timedOut s.freeCount)
        (changeEntry x.entry (unansweredEntry (s.entry x.entry)) { s with freeCount := s.freeCount + 1 }) := by
      simp only [timeOutTransaction, h, failTransaction, hd]
      rfl
    rw [endTransaction_eq, changeEntry_eq] at he
    rw [he]
    refine ⟨rfl, rfl, rfl, rfl, rfl, rfl, rfl, fun y hy => ?_, hb, fun n => ?_⟩
    · simp only [hd, Bool.false_eq_true, if_false] at hy
      exact pollAfter_start hy
    · by_cases hn : n = x.entry
      · subst hn
        simp [State.entry, unanswered_eq]
      · have : x.entry.val ≠ n.val := fun he => hn (Fin.ext he.symm)
        simp [State.entry, hn, this]
  · have he : timeOutTransaction s
        = endTransaction x (x.timedOut s.freeCount) { s with freeCount := s.freeCount + 1 } := by
      simp only [timeOutTransaction, h, failTransaction, hd]
      rfl
    rw [endTransaction_eq] at he
    rw [he]
    refine ⟨rfl, rfl, rfl, rfl, rfl, rfl, rfl, fun y hy => ?_, hb, fun n => by simp [State.entry]⟩
    simp only [hd, if_true] at hy
    split at hy
    · exact pollAfter_start hy
    · cases hy

/-- What the start of a round leaves (R148, R149). -/
theorem startRound_leaves (s : State) :
    (startRound s).sched = s.sched ∧ (startRound s).time = s.time ∧ (startRound s).sat.running = s.sat.running
      ∧ (startRound s).sat.round = (if s.sat.firstRound.isSome then 0 else s.sat.round + 1) ∧ (startRound s).sat.phase = 0
      ∧ (startRound s).sat.firstRound = none ∧ (startRound s).sat.bus = s.sat.bus
      ∧ (∀ x, s.sat.transaction = some x → (startRound s).sat.transaction = some x)
      ∧ (s.sat.transaction = none → ∀ y, (startRound s).sat.transaction = some y → y.start = s.time)
      ∧ ∀ n, (startRound s).entry n = s.entry n := by
  have hr : (match s.sat.firstRound with | some _ => (0 : Serial) | none => s.sat.round + 1)
      = if s.sat.firstRound.isSome then 0 else s.sat.round + 1 := by cases s.sat.firstRound <;> rfl
  cases ht : s.sat.transaction with
  | some x =>
    have he : startRound s =
        { s with
          sat :=
            { s.sat with
              round := if s.sat.firstRound.isSome then 0 else s.sat.round + 1, phase := 0, firstRound := none, pollWaiting := true } } := by
      rw [← hr]; simp only [startRound, ht] <;> rfl
    rw [he]
    exact ⟨rfl, rfl, rfl, rfl, rfl, rfl, rfl, fun y hy => ht.trans hy, fun hn => by simp at hn, fun _ => rfl⟩
  | none =>
    have he : startRound s =
        pollFrom 0
          { s with
            sat :=
              { s.sat with round := if s.sat.firstRound.isSome then 0 else s.sat.round + 1, phase := 0, firstRound := none } } := by
      rw [← hr]; simp only [startRound, ht] <;> rfl
    rw [pollFrom_after] at he
    rw [he]
    exact ⟨rfl, rfl, rfl, rfl, rfl, rfl, rfl, fun y hy => by simp at hy, fun _ y hy => pollAfter_start hy, fun _ => rfl⟩

/-- Each event on the way uses up one of those left. -/
theorem eventsLeft_step {base limit : Nat} {s : State} {m : Moment} (hl : limit ≤ base + 1000) (hb : base ≤ s.time)
    (hm : m ∈ s.moments) (ht : m.time ≤ limit) (hf : ∀ x ∈ s.moments, m.time ≤ x.time) :
    eventsLeft base limit (takeTimed m.event (s.atMoment m.time)) < eventsLeft base limit s
      ∧ base ≤ (takeTimed m.event (s.atMoment m.time)).time := by
  have hr : (s.atMoment m.time).roundAt = s.roundAt :=
    atMoment_roundAt fun t h => hf ⟨t, .roundStart⟩ (by simp [State.moments, mem_momentOf, h])
  have hx := atMoment_transaction s m.time
  have htime := atMoment_time s m.time
  have hs : (s.atMoment m.time).sched = s.sched := rfl
  generalize hu : s.atMoment m.time = u at hr hx htime hs
  have hut : base ≤ u.time := by omega
  rcases m with ⟨t, event⟩
  dsimp only at ht htime
  simp only [State.moments, List.mem_append, mem_momentOf] at hm
  have hround : (takeTimed event u).roundAt = u.roundAt ∨ event = .roundStart := by
    cases event with
    | pulseEnd ch => exact .inl (by cases ch <;> rfl)
    | timeout =>
      left
      cases hx' : u.sat.transaction with
      | none => simp [takeTimed, timeOutTransaction, hx']
      | some x => exact (timeOut_leaves hx').2.2.1
    | roundStart => exact .inr rfl
  rcases hm with (((⟨rfl, h⟩ | ⟨rfl, h⟩) | ⟨rfl, h⟩) | ⟨rfl, h⟩) | ⟨rfl, h⟩
  · have he : (endPulse .patch u).roundAt = s.roundAt := by rw [← hr]; rfl
    simp only [eventsLeft, takeTimed, he]
    simp [endPulse, hs, hx, h, dueBy, ht, hut]
  · have he : (endPulse .camera u).roundAt = s.roundAt := by rw [← hr]; rfl
    simp only [eventsLeft, takeTimed, he]
    simp [endPulse, hs, hx, h, dueBy, ht, hut]
  · have he : (endPulse .kick u).roundAt = s.roundAt := by rw [← hr]; rfl
    simp only [eventsLeft, takeTimed, he]
    simp [endPulse, hs, hx, h, dueBy, ht, hut]
  · obtain ⟨x, hxs, hxt⟩ := Option.map_eq_some_iff.mp h
    obtain ⟨e1, e2, e3, -, -, -, -, e8, -, -⟩ := timeOut_leaves (hx.trans hxs)
    simp only [eventsLeft, takeTimed, e1, e2, e3, hs, hr, hxs]
    refine ⟨Nat.add_lt_add_left ?_ _, hut⟩
    cases hy : (timeOutTransaction u).sat.transaction with
    | none => dsimp only; split <;> [split; skip] <;> omega
    | some y =>
      have := e8 y hy
      dsimp only
      (repeat' split) <;> omega
  · obtain ⟨e1, e2, e3, e4, e5, e6, -, e8, e9, -⟩ := startRound_leaves u
    have hrun : (startRound u).sat.running = true := by
      rw [e3]
      have h' : u.roundAt = some t := hr.trans h
      unfold State.roundAt at h'
      split at h'
      · assumption
      · cases h'
    have hnext : (startRound u).roundAt = some (u.time + 10000) := by
      simp [State.roundAt, hrun, e6, e5]
    simp only [eventsLeft, takeTimed, e1, e2, hs, hnext, h, dueBy, ht, if_true]
    refine ⟨?_, hut⟩
    rw [if_neg (by omega : ¬u.time + 10000 ≤ limit)]
    cases hy : s.sat.transaction with
    | some x =>
      rw [e8 x (hx.trans hy)]
      dsimp only
      omega
    | none =>
      cases hz : (startRound u).sat.transaction with
      | none => dsimp only; omega
      | some z =>
        have := e9 (hx.trans hy) z hz
        dsimp only
        (repeat' split) <;> omega

theorem eventsLeft_pos {base limit : Nat} {s : State} {m : Moment} (hm : m ∈ s.moments) (ht : m.time ≤ limit) :
    0 < eventsLeft base limit s := by
  rcases m with ⟨t, event⟩
  simp only [State.moments, List.mem_append, mem_momentOf] at hm
  dsimp only at ht
  unfold eventsLeft
  rcases hm with (((⟨rfl, h⟩ | ⟨rfl, h⟩) | ⟨rfl, h⟩) | ⟨rfl, h⟩) | ⟨rfl, h⟩
  · simp [h, dueBy, ht]
  · simp [h, dueBy, ht]
  · simp [h, dueBy, ht]
  · obtain ⟨x, hx, hxt⟩ := Option.map_eq_some_iff.mp h
    rw [hx]
    dsimp only
    rw [if_pos (by omega)]
    split <;> omega
  · simp [h, dueBy, ht]

/-- An induction over the events of one advance: what holds before it and is kept by each event on the way holds of a state from which
only time passes, with nothing more due. -/
theorem advanceTime_reaches (P : State → Prop) {base limit : Nat} (hl : limit ≤ base + 1000)
    (hstep : ∀ (u : State) (m : Moment), P u → base ≤ u.time → m ∈ u.moments → m.time ≤ limit →
      (∀ x ∈ u.moments, m.time ≤ x.time) → P (takeTimed m.event (u.atMoment m.time)))
    (fuel : Nat) (s : State) (h0 : P s) (hb : base ≤ s.time) (hfuel : eventsLeft base limit s ≤ fuel) :
    ∃ u, P u ∧ base ≤ u.time ∧ advanceTime fuel limit s = u.atMoment limit ∧ ∀ x ∈ u.moments, limit < x.time := by
  induction fuel generalizing s with
  | zero =>
    refine ⟨s, h0, hb, rfl, fun x hx => ?_⟩
    by_contra hn
    have := eventsLeft_pos (base := base) hx (Nat.le_of_not_lt hn)
    omega
  | succ fuel ih =>
    have hs := earliest_spec limit s.moments
    unfold advanceTime
    cases h : earliest limit s.moments with
    | none =>
      rw [h] at hs
      exact ⟨s, h0, hb, rfl, hs⟩
    | some m =>
      rw [h] at hs
      obtain ⟨h1, h2, h3⟩ := hs
      obtain ⟨d1, d2⟩ := eventsLeft_step hl hb h1 h2 h3
      exact ih (takeTimed m.event (s.atMoment m.time)) (hstep s m h0 hb h1 h2 h3) d2 (by omega)

theorem eventsLeft_le (base limit : Nat) (s : State) : eventsLeft base limit s ≤ 7 := by
  have hd : ∀ x, dueBy limit x ≤ 1 := by
    intro x
    cases x with
    | none => simp [dueBy]
    | some t => simp only [dueBy]; split <;> omega
  have h1 := hd s.sched.patchPulse
  have h2 := hd s.sched.cameraPulse
  have h3 := hd s.sched.kickPulse
  have h4 := hd s.roundAt
  unfold eventsLeft
  split
  · omega
  · split
    · split <;> omega
    · omega

/-! ## What an advance of at most 1 ms does to the pulses, the rounds and the transaction -/

/-- Nothing is left due after an advance of at most 1 ms. -/
theorem advanceTime_quiet {limit : Nat} {s : State} (hl : limit ≤ s.time + 1000) :
    ∀ e m, (advanceTime timedLimit limit s).Awaits e m → limit < m := by
  obtain ⟨u, -, -, he, hn⟩ := advanceTime_reaches (fun _ => True) hl (fun _ _ _ _ _ _ _ => trivial) timedLimit s trivial (Nat.le_refl _)
    (Nat.le_trans (eventsLeft_le _ _ _) (by decide))
  rw [he]
  intro e m ha
  have hr : (u.atMoment limit).roundAt = u.roundAt :=
    atMoment_roundAt fun t h => Nat.le_of_lt (hn ⟨t, .roundStart⟩ (by simp [State.moments, mem_momentOf, h]))
  have hm : (u.atMoment limit).moments = u.moments := by
    simp only [State.moments, hr, State.timeoutAt, atMoment_transaction]
    rfl
  obtain ⟨x, hx, -, rfl⟩ := awaits_iff.mp ha
  rw [hm] at hx
  exact hn x hx

/-- What an event of the time base leaves of the scheduler: a pulse has ended, or nothing changed. -/
theorem takeTimed_sched (event : TimedEvent) (s : State) :
    (takeTimed event s).sched = match event with
      | .pulseEnd ch => s.sched.withEnded fun q => decide (q = ch)
      | _ => s.sched := by
  cases event with
  | pulseEnd ch => cases ch <;> simp [takeTimed, endPulse, Sched.withEnded]
  | timeout =>
    cases hx : s.sat.transaction with
    | none => simp [takeTimed, timeOutTransaction, hx]
    | some x => exact (timeOut_leaves hx).1
  | roundStart => exact (startRound_leaves s).1

/-- R83: an advance of at most 1 ms ends the pulses whose end time it reaches, and leaves the rest of the scheduler. -/
theorem advanceTime_sched {limit : Nat} {s : State} (hl : limit ≤ s.time + 1000) :
    (advanceTime timedLimit limit s).sched = s.sched.withEnded (s.sched.endsBy limit) := by
  have hcomp : ∀ f g : PulseChannel → Bool,
      (s.sched.withEnded f).withEnded g = s.sched.withEnded fun ch => f ch || g ch := by
    intro f g
    simp only [Sched.withEnded, Bool.not_or, Bool.and_assoc]
    have hif : ∀ (a b : Bool) (x : Option Nat), (if b then none else if a then none else x) = if a || b then none else x := by
      intro a b x; cases a <;> cases b <;> rfl
    simp only [hif]
  have hpulse : ∀ (f : PulseChannel → Bool) ch, (s.sched.withEnded f).pulse ch = if f ch then none else s.sched.pulse ch := by
    intro f ch; cases ch <;> rfl
  obtain ⟨u, ⟨f, hf, hu⟩, -, he, hn⟩ := advanceTime_reaches
    (fun u => ∃ f : PulseChannel → Bool, (∀ ch, f ch = true → s.sched.endsBy limit ch = true) ∧ u.sched = s.sched.withEnded f) hl
    (fun u m ⟨f, hf, hu⟩ _ hm ht _ => by
      have hs : (u.atMoment m.time).sched = s.sched.withEnded f := hu
      rw [takeTimed_sched]
      cases hev : m.event with
      | pulseEnd ch =>
        have hp : u.sched.pulse ch = some m.time := by
          have := awaits_iff.mpr ⟨m, hm, rfl, rfl⟩
          rw [hev] at this
          rcases this with ⟨c, hc, h⟩ | ⟨hc, -⟩ | ⟨hc, -⟩
          · cases hc; exact h
          · cases hc
          · cases hc
        rw [hu, hpulse] at hp
        refine ⟨fun q => f q || decide (q = ch), fun q hq => ?_, by dsimp only; rw [hs, hcomp]⟩
        rcases Bool.or_eq_true _ _ ▸ hq with hq | hq
        · exact hf q hq
        · have : q = ch := by simpa using hq
          subst this
          split at hp
          · cases hp
          · simp [Sched.endsBy, hp, ht]
      | timeout => exact ⟨f, hf, hs⟩
      | roundStart => exact ⟨f, hf, hs⟩)
    timedLimit s ⟨fun _ => false, by simp, by simp [Sched.withEnded]⟩ (Nat.le_refl _) (Nat.le_trans (eventsLeft_le _ _ _) (by decide))
  rw [he]
  have : f = s.sched.endsBy limit := by
    funext ch
    cases hfc : f ch with
    | true => exact (hf ch hfc).symm
    | false =>
      cases hec : s.sched.endsBy limit ch with
      | false => rfl
      | true =>
        exfalso
        unfold Sched.endsBy at hec
        cases hp : s.sched.pulse ch with
        | none => simp [hp] at hec
        | some t =>
          have ht : t ≤ limit := by simpa [hp] using hec
          have hup : u.sched.pulse ch = some t := by rw [hu, hpulse, hfc, hp]; rfl
          have ha : u.Awaits (.pulseEnd ch) t := .inl ⟨ch, rfl, hup⟩
          obtain ⟨x, hx, -, rfl⟩ := awaits_iff.mp ha
          have := hn x hx
          omega
  rw [← this]
  exact hu

/-- What a passing of time leaves of the poller, the phase apart. -/
theorem atMoment_sat (s : State) (t : Nat) :
    (s.atMoment t).sat.round = s.sat.round ∧ (s.atMoment t).sat.firstRound = s.sat.firstRound
      ∧ (s.atMoment t).sat.running = s.sat.running ∧ (s.atMoment t).sat.bus = s.sat.bus
      ∧ (s.atMoment t).sat.phase = (if s.sat.running && s.sat.firstRound.isNone then s.sat.phase + (t - s.time) else s.sat.phase)
      ∧ ∀ n, (s.atMoment t).entry n = s.entry n := by
  unfold State.atMoment State.entry
  dsimp only
  split <;> simp

/-- R148: a round whose moment an advance of at most 1 ms reaches starts there, and its phase runs from it. -/
theorem advanceTime_round {limit r : Nat} {s : State} (hs : s.time ≤ limit) (hl : limit ≤ s.time + 1000)
    (hr : s.roundAt = some r) (hd : r ≤ limit) :
    let t := advanceTime timedLimit limit s
    t.sat.round = (if s.sat.firstRound.isSome then 0 else s.sat.round + 1) ∧ t.sat.firstRound = none
      ∧ t.sat.phase = limit - Nat.max s.time r := by
  have hmax : Nat.max s.time r = max s.time r := rfl
  have hrun : s.sat.running = true := by
    unfold State.roundAt at hr
    split at hr
    · assumption
    · cases hr
  let P (u : State) : Prop :=
    u.sat.running = true ∧ u.time ≤ limit
      ∧ (u.sat.round = s.sat.round ∧ u.sat.firstRound = s.sat.firstRound ∧ u.roundAt = some r ∧ u.time ≤ max s.time r
        ∨ u.sat.round = (if s.sat.firstRound.isSome then 0 else s.sat.round + 1) ∧ u.sat.firstRound = none
            ∧ max s.time r ≤ u.time ∧ u.sat.phase = u.time - max s.time r)
  have hstep : ∀ (u : State) (m : Moment), P u → s.time ≤ u.time → m ∈ u.moments → m.time ≤ limit →
      (∀ x ∈ u.moments, m.time ≤ x.time) → P (takeTimed m.event (u.atMoment m.time)) := by
    rintro u m ⟨hru, hul, h⟩ hb hm ht hf
    obtain ⟨a1, a2, a3, -, a5, -⟩ := atMoment_sat u m.time
    have atime := atMoment_time u m.time
    have hle : ∀ t, u.roundAt = some t → m.time ≤ t := fun t h => hf ⟨t, .roundStart⟩ (by simp [State.moments, mem_momentOf, h])
    have around := atMoment_roundAt hle
    have aphase : u.sat.firstRound = none → (u.atMoment m.time).sat.phase = u.sat.phase + (m.time - u.time) := by
      intro hf'
      rw [a5]
      simp [hru, hf']
    generalize hw : u.atMoment m.time = w at a1 a2 a3 a5 atime around aphase
    have hkeep : ∀ w' : State, w'.sat.round = w.sat.round → w'.sat.firstRound = w.sat.firstRound → w'.sat.running = w.sat.running →
        w'.sat.phase = w.sat.phase → w'.time = w.time → w'.roundAt = w.roundAt → P w' := by
      intro w' b1 b2 b3 b4 b5 b6
      refine ⟨by rw [b3, a3, hru], by omega, ?_⟩
      rcases h with ⟨h1, h2, h3, h4⟩ | ⟨h1, h2, h3, h4⟩
      · have := hle r h3
        exact .inl ⟨by rw [b1, a1, h1], by rw [b2, a2, h2], by rw [b6, around, h3], by omega⟩
      · refine .inr ⟨by rw [b1, a1, h1], by rw [b2, a2, h2], by omega, ?_⟩
        rw [b4, aphase h2, b5, atime, h4]
        omega
    cases hev : m.event with
    | pulseEnd ch => cases ch <;> exact hkeep _ rfl rfl rfl rfl rfl rfl
    | timeout =>
      cases hx : w.sat.transaction with
      | none =>
        have : takeTimed .timeout w = w := by simp [takeTimed, timeOutTransaction, hx]
        rw [this]
        exact hkeep w rfl rfl rfl rfl rfl rfl
      | some x =>
        obtain ⟨-, e2, e3, e4, e5, e6, e7, -⟩ := timeOut_leaves hx
        exact hkeep _ e4 e6 e7 e5 e2 e3
    | roundStart =>
      obtain ⟨-, e2, e3, e4, e5, e6, -⟩ := startRound_leaves w
      have hwr : u.roundAt = some m.time := by
        rcases m with ⟨t, event⟩
        dsimp only at hev
        subst hev
        simpa [State.moments, mem_momentOf] using hm
      rcases h with ⟨h1, h2, h3, h4⟩ | ⟨h1, h2, h3, h4⟩
      · have hrm : r = m.time := Option.some.inj (h3.symm.trans hwr)
        refine ⟨e3.trans (a3.trans hru), by simp only [takeTimed]; omega, .inr ⟨?_, e6, ?_, ?_⟩⟩
        · simp only [takeTimed]; rw [e4, a1, a2, h1, h2]
        · simp only [takeTimed]; omega
        · simp only [takeTimed]; omega
      · exfalso
        have : u.roundAt = some (u.time + (10000 - u.sat.phase)) := by simp [State.roundAt, hru, h2]
        rw [hwr, h4] at this
        have := Option.some.inj this
        omega
  obtain ⟨u, hu, hb, he, hn⟩ := advanceTime_reaches P hl hstep timedLimit s ⟨hrun, hs, .inl ⟨rfl, rfl, hr, Nat.le_max_left _ _⟩⟩
    (Nat.le_refl _) (Nat.le_trans (eventsLeft_le _ _ _) (by decide))
  dsimp only
  rw [he]
  obtain ⟨a1, a2, -, -, a5, -⟩ := atMoment_sat u limit
  rcases hu with ⟨hru, hul, ⟨-, -, h, -⟩ | ⟨h1, h2, h3, h4⟩⟩
  · have := hn ⟨r, .roundStart⟩ (by simp [State.moments, mem_momentOf, h])
    dsimp only at this
    omega
  · refine ⟨by rw [a1, h1], by rw [a2, h2], ?_⟩
    rw [a5, hru, h2, h4]
    simp only [Option.isNone_none, Bool.and_self, if_true]
    omega

/-- R151: a transaction whose 1,000 µs an advance does not reach stays on the bus, and one whose mark it reaches has timed out: its
entry has the no-answer, unless it carries the discard mark, and the other entries stand as before. -/
theorem advanceTime_transaction {limit : Nat} {s : State} {x : Transaction} (hl : limit ≤ s.time + 1000)
    (hx : s.sat.transaction = some x) (hn : s.time < x.start + 1000) :
    let t := advanceTime timedLimit limit s
    (limit < x.start + 1000 → t.sat.transaction = some x ∧ t.sat.bus = s.sat.bus ∧ ∀ n, t.entry n = s.entry n)
    ∧ (x.start + 1000 ≤ limit →
        IsTimedOut x.address x.register t.sat.bus
          ∧ ∀ n, t.entry n = if n = x.entry ∧ x.discard = false then (s.entry n).unanswered else s.entry n) := by
  let P (u : State) : Prop :=
    (u.sat.transaction = some x ∧ u.sat.bus = s.sat.bus ∧ ∀ n, u.entry n = s.entry n)
      ∨ (x.start + 1000 ≤ limit ∧ s.time < u.time ∧ (∀ y, u.sat.transaction = some y → limit < y.start + 1000)
          ∧ IsTimedOut x.address x.register u.sat.bus
          ∧ ∀ n, u.entry n = if n = x.entry ∧ x.discard = false then (s.entry n).unanswered else s.entry n)
  have hstep : ∀ (u : State) (m : Moment), P u → s.time ≤ u.time → m ∈ u.moments → m.time ≤ limit →
      (∀ y ∈ u.moments, m.time ≤ y.time) → P (takeTimed m.event (u.atMoment m.time)) := by
    intro u m h hb hm ht _
    obtain ⟨-, -, -, a4, -, a6⟩ := atMoment_sat u m.time
    have atime := atMoment_time u m.time
    have ax := atMoment_transaction u m.time
    generalize hw : u.atMoment m.time = w at a4 a6 atime ax
    have hkeep : ∀ w' : State, w'.sat.transaction = w.sat.transaction → w'.sat.bus = w.sat.bus → (∀ n, w'.entry n = w.entry n) →
        w'.time = w.time → P w' := by
      intro w' b1 b2 b3 b4
      rcases h with ⟨h1, h2, h3⟩ | ⟨h0, h1, h2, h3, h4⟩
      · exact .inl ⟨by rw [b1, ax, h1], by rw [b2, a4, h2], fun n => by rw [b3, a6, h3]⟩
      · exact .inr ⟨h0, by omega, fun y hy => h2 y (by rw [← ax, ← b1]; exact hy), by rw [b2, a4]; exact h3,
          fun n => by rw [b3, a6, h4]⟩
    cases hev : m.event with
    | pulseEnd ch => cases ch <;> exact hkeep _ rfl rfl (fun _ => rfl) rfl
    | timeout =>
      obtain ⟨y, hy, hyt⟩ : ∃ y, u.sat.transaction = some y ∧ y.start + 1000 = m.time := by
        rcases m with ⟨t, event⟩
        dsimp only at hev
        subst hev
        have : u.timeoutAt = some t := by simpa [State.moments, mem_momentOf] using hm
        exact Option.map_eq_some_iff.mp this
      rcases h with ⟨h1, h2, h3⟩ | ⟨-, -, h2, -⟩
      · obtain rfl : y = x := Option.some.inj (hy.symm.trans h1)
        obtain ⟨-, e2, -, -, -, -, -, e8, e9, e10⟩ := timeOut_leaves (ax.trans hy)
        refine .inr ⟨by omega, ?_, fun z hz => ?_, e9, fun n => ?_⟩
        · simp only [takeTimed]; omega
        · have := e8 z hz; omega
        · simp only [takeTimed]; rw [e10, a6, h3]
      · have := h2 y hy
        omega
    | roundStart =>
      obtain ⟨-, e2, -, -, -, -, e7, e8, e9, e10⟩ := startRound_leaves w
      cases hwx : w.sat.transaction with
      | some y => exact hkeep _ ((e8 y hwx).trans hwx.symm) e7 e10 e2
      | none =>
        rcases h with ⟨h1, -, -⟩ | ⟨h0, h1, h2, h3, h4⟩
        · rw [ax, h1] at hwx; cases hwx
        · refine .inr ⟨h0, by simp only [takeTimed]; omega, fun z hz => ?_, by simp only [takeTimed]; rw [e7, a4]; exact h3,
            fun n => by simp only [takeTimed]; rw [e10, a6, h4]⟩
          have := e9 hwx z hz
          omega
  obtain ⟨u, hu, hb, he, hq⟩ := advanceTime_reaches P hl hstep timedLimit s (.inl ⟨hx, rfl, fun _ => rfl⟩)
    (Nat.le_refl _) (Nat.le_trans (eventsLeft_le _ _ _) (by decide))
  dsimp only
  rw [he]
  obtain ⟨-, -, -, a4, -, a6⟩ := atMoment_sat u limit
  rw [atMoment_transaction, a4]
  simp only [a6]
  rcases hu with ⟨h1, h2, h3⟩ | ⟨h0, h1, h2, h3, h4⟩
  · refine ⟨fun _ => ⟨h1, h2, h3⟩, fun hd => ?_⟩
    have := hq ⟨x.start + 1000, .timeout⟩ (by simp [State.moments, mem_momentOf, State.timeoutAt, h1])
    dsimp only at this
    omega
  · exact ⟨fun hd => by omega, fun _ => ⟨h3, h4⟩⟩

end Sys2Proof.Machine
end

