-- ==== Sys2Proof/Tests/Slice0.lean ====
section
/-! SUPPORT. Tests on small states, with results worked out by hand from spec/ (its worked examples where it has one); the smoke
test of WellFormed; frames written out byte by byte; and, for each statement with hypotheses, a state that meets them. -/

namespace Sys2Proof.Tests

open Sys2Proof.Machine

/-! ## The states the tests start from -/

/-- P = 4,000 and the stations, leads and clamps the examples of chapters 4 and 5 use. -/
def config : MachineConfig where
  shaft := ⟨4000, .normal, 100, 50⟩
  stations := ⟨3, ⟨#[4, 4, 5, 12], rfl⟩, 5, 6, 10⟩
  angles := ⟨200, 2000, 3000, 1000, 500⟩
  channels :=
    { valves := ⟨#[⟨2500, 1200, 40, true⟩, ⟨0, 0, 40, true⟩, ⟨0, 0, 40, true⟩, ⟨0, 0, 40, false⟩], rfl⟩
      patch := ⟨800, 100, true⟩, camera := ⟨0, 100, true⟩, kick := ⟨0, 100, true⟩, gateLead := 0, gateEnable := true }
  register := ⟨200, 500⟩
  sats := Vector.replicate 8 ⟨0, 0, 1, .below, 300, 3, .hold, true⟩
  written := Vector.replicate 13 true

def profile : Profile where
  header := ⟨7, 100, 5, ⟨true, true, true, false, false, false⟩, .reject, true, ⟨true, false, false, false⟩, true⟩
  print := ⟨2000, 100, 20⟩
  patch := some ⟨1800, 2600, 200, 20⟩
  gum := ⟨#[some [⟨1100, 1700⟩], none, none, none], rfl⟩

def blank (n : Serial) : Blank := { Blank.created n 0 false with presence := .present }

def records : List Blank := ([47, 48, 49, 50, 51, 52, 53, 54, 55, 56, 57] : List Serial).map blank

def filled (x : SlotState) : ProfileSlot := ⟨x, some profile, some (crc16 profile.image)⟩

def emptySlot : ProfileSlot := ⟨.empty, none, none⟩

/-- LIVE in cycle 57 at angle 0, slot 0 ACTIVE, slot 1 READY, blanks 47 to 57 tracked. -/
def live : State :=
  { State.reset with
    shaft := { Shaft.reset with homed := true, position := 224000, lastIndex := 224000, lastDir := .forward, motion := .moving }
    profiles := { Profiles.reset with slots := ⟨#[filled .active, filled .ready, emptySlot, emptySlot], rfl⟩ }
    track := ⟨records, 58, some 57, false, false⟩
    run := ⟨.live, CauseSet.empty, true⟩
    sat := { Poller.reset with running := true }
    config := config }

def homedAt (position : Nat) : State := { live with shaft := { live.shaft with position := position } }

/-- At `position`, the boundary 57 × P passed on the way and its creation not yet taken. -/
def beyondBoundary (position : Nat) : State := { homedAt position with track := { live.track with boundaryPassed := true } }

def atBoundary : State := beyondBoundary 228000

/-- HOMING with the next serial 213 of the first worked example of chapter 1. -/
def homing : State :=
  { live with
    shaft := { live.shaft with homed := false, position := 17405, lastIndex := 0, slips := 2 }
    track := ⟨[], 213, none, false, false⟩
    run := ⟨.homing, CauseSet.empty, true⟩ }

/-- OFF and at rest, the configuration written, slots 0 and 1 READY. -/
def off : State :=
  { State.reset with
    profiles := { Profiles.reset with slots := ⟨#[filled .ready, filled .ready, emptySlot, emptySlot], rfl⟩ }
    config := config }

/-- `s` with the slot of `pt` armed for cycle 57 and the position at its target. -/
def dueAt (pt : TimedPoint) (s : State) : State :=
  armSlot pt 57 { s with shaft := { s.shaft with position := ((armSlot pt 57 s).slot pt).target } }

/-- The state a command leads to. -/
def after (i : Instr) (s : State) : State :=
  match exec i s with
  | .next t => t
  | .fault _ => s
  | .refused _ => s

/-- The response pending on port 1 afterwards. -/
def answer (i : Instr) (s : State) : Option Response := ((after i s).port .port1).pending

/-! ## WellFormed: one ill-formed term for each check -/

theorem test_void_points : (Instr.voidSlotConsumed .gate).wellFormed = false ∧ (Instr.voidSlotConsumed .patchKnife).wellFormed = true := by
  decide

/-- R189: a transfer may begin, and end, without a whole byte. -/
theorem test_transfers_without_a_byte :
    (Instr.transferBegin .port1 []).wellFormed = true ∧ (Instr.frame .port1 []).wellFormed = true
      ∧ decodeTransfer .port1 [] = .frame .port1 [] := by decide

theorem test_frame_must_be_malformed :
    (Instr.frame .port1 [0x10, 7, 0]).wellFormed = false ∧ (Instr.frame .port1 [0x10, 7]).wellFormed = true
      ∧ (Instr.frame .port1 [0x10, 7, 62]).wellFormed = true := by decide

theorem test_unknown_must_be_outside_the_index :
    (Instr.unknown .port1 [0x11, 7, 0]).wellFormed = false ∧ (Instr.unknown .port1 [0x15, 7]).wellFormed = false
      ∧ (Instr.unknown .port1 [0x15, 7, 0]).wellFormed = true := by decide

theorem test_payload_of_62_bytes_is_no_frame :
    (Instr.stop .port1 7 (List.replicate 62 0)).wellFormed = false ∧ (Instr.stop .port1 7 (List.replicate 61 0)).wellFormed = true := by
  decide

/-! ## Frames written out from R202 and R204 -/

theorem test_decode_verdict :
    decodeTransfer .port2 [0x40, 7, 7, 0, 0, 0x03, 0x84, 0, 0, 0] = .verdict .port2 7 [0, 0, 0x03, 0x84, 0, 0, 0] := by decide

theorem test_decode_ignores_bytes_after_the_payload :
    decodeTransfer .port1 [0x30, 8, 4, 0, 0, 3, 0x84, 0xFF, 0xFF] = .trackRead .port1 8 [0, 0, 3, 0x84] := by decide

theorem test_decode_run_commands :
    decodeTransfer .port1 [0x11, 1, 1, 2] = .start .port1 1 [2] ∧ decodeTransfer .port1 [0x13, 2, 1, 0x1F] = .clearHalt .port1 2 [0x1F]
      ∧ decodeTransfer .port3 [0x14, 3, 0] = .runReset .port3 3 [] ∧ decodeTransfer .port3 [0x50, 4, 1, 5] = .satelliteRead .port3 4 [5] := by
  decide

theorem test_decode_store_commands :
    decodeTransfer .port1 [0x28, 9, 6, 1, 1, 0, 0, 3, 0xE8] = .changeoverArm .port1 9 [1, 1, 0, 0, 3, 0xE8]
      ∧ decodeTransfer .port1 [0x22, 9, 1, 1] = .stageCommit .port1 9 [1]
      ∧ decodeTransfer .port1 [0x4A, 9, 4, 0, 0, 0, 31] = .batchAck .port1 9 [0, 0, 0, 31] := by decide

theorem test_decode_cut_and_unknown :
    decodeTransfer .port2 [0, 9] = .frame .port2 [0, 9] ∧ decodeTransfer .port2 [0x7F, 9, 0] = .unknown .port2 [0x7F, 9, 0]
      ∧ decodeTransfer .port2 [0, 10, 0] = .nop .port2 10 [] := by decide

/-! ## Hand-worked results: shaft -/

/-- R1: (ENC_A, ENC_B) from 00 to 10 is a forward count under NORMAL, and from 00 to 01 a reverse one. -/
theorem test_encoder_count :
    (after (.encoderCount true false true) live).shaft.position = 224001
      ∧ (after (.encoderCount false true true) live).shaft.position = 223999 := by decide

/-- Chapter 1's example: the boundary at 852,000 creates blank 214; here H = 57, so 228,000 creates 58. -/
theorem test_creation_at_the_boundary :
    ((after .blankCreation atBoundary).track.records.map Blank.serial)
      = [48, 49, 50, 51, 52, 53, 54, 55, 56, 57, 58] := by decide

/-- R9: the single count that makes the position equal to the boundary passes it, and the one before does not. -/
theorem test_count_passes_the_boundary :
    (after (.encoderCount true false true) (homedAt 227998)).track.highWater = some 57
      ∧ (after (.encoderCount true false true) (homedAt 227999)).track.highWater = some 58 := by decide

/-- R2, R10, R70: the reverse count that puts the position more than 2^31 × P counts behind the count target 225,000 passes nothing, though by
R2's order the position then stands beyond it and the boundary; nor does the tick or the forward count that follows. -/
theorem test_far_reverse_passes_nothing :
    let far := after (.encoderCount false true true) (armSlot .count 57 (homedAt 8589934817000))
    let ticked := after .tick far
    let onward := after (.encoderCount false false true) far
    atOrBeyond 4000 far.shaft.position 225000 = true ∧ atOrBeyond 4000 far.shaft.position 228000 = true ∧ far.NothingPassed
      ∧ (far.slot .count).target = 225000 ∧ ticked.track.highWater = some 57 ∧ (ticked.slot .count).cycle = 57
      ∧ onward.shaft.position = 8589934817000 ∧ onward.track.highWater = some 57 ∧ (onward.slot .count).cycle = 57 :=
  ⟨by decide, by decide, nextPassed_eq_none.mp (by decide), by decide, by decide +kernel, by decide +kernel, by decide, by decide, by decide⟩

/-- Chapter 1's example: homing with next serial 213 puts the position at 848,000. -/
theorem test_homing :
    (after (.indexEdge true) homing).shaft.position = 848000 ∧ (after (.indexEdge true) homing).track.highWater = some 213
      ∧ (after (.indexEdge true) homing).run.runState = .live := by decide +kernel

/-- Chapter 1's example: angle 7 is the fault INDEX_OFFSET with detail 7. -/
theorem test_index_offset_fault :
    (after (.indexEdge true) (homedAt 224007)).shaft.latch = ⟨.indexOffset, 7⟩
      ∧ (after (.indexEdge true) (homedAt 224007)).run.runState = .homing := by decide

/-- Chapter 1's example: angle 3,998 is δ = −2 and corrects by +2. -/
theorem test_index_correction : (after (.indexEdge true) (homedAt 227998)).shaft.position = 228000 := by decide

/-- R7: 2 × P counts without an index edge. -/
theorem test_index_missing : (after .indexMissing (homedAt 232000)).shaft.latch = ⟨.indexMissing, 8000⟩ := by decide

theorem test_quadrature_error : (after .quadratureErrorSample live).shaft.latch.kind = .quadrature := by decide

/-- Chapter 1's example, tick 1 after the stop: W = 1,200, S = 1,200, 1,125 cycles per minute. -/
theorem test_tick_speed :
    let s := after .tick { live with shaft := { live.shaft with window := List.replicate 16 80 } }
    s.shaft.speed = 1200 ∧ s.shaft.cyclesPerMinute = 1125 ∧ s.shaft.motion = .moving ∧ s.time = 1000 := by decide +kernel

/-- R13: after 50 ticks below the creep threshold the machine is AT_REST, and the OFFs close (R81). -/
theorem test_rest : (after .restDwellExpiry { live with shaft := { live.shaft with restCounter := 50 } }).shaft.motion = .atRest := by decide +kernel

/-! ## Targets and firings -/

/-- Chapter 4's example at S = 1,280 in cycle 57: ON at 224,900, OFF at 225,604, the knife at 1,800 − 12 − 64. -/
theorem test_targets :
    let s : State :=
      { live with shaft := { live.shaft with speed := 1280 }, reg := { live.reg with patch := { Channel.reset with value := -12 } } }
    ((armSlot (.valveOn 0 0) 57 s).slot (.valveOn 0 0)).target = 224900
      ∧ ((armSlot (.valveOff 0 0) 57 s).slot (.valveOff 0 0)).target = 225604
      ∧ ((armSlot .patchKnife 57 s).slot .patchKnife).target = 225724 := by decide

/-- R64, R70: of the count points 57 and 58, the camera of 57 and the creation between them, each is taken by its own position: the count
point armed again behind the position waits for the camera and the creation below it. -/
theorem test_passage_in_order_of_position :
    let s := armSlot .camera 57 (armSlot .count 57 (beyondBoundary 229500))
    let s1 := takePassed (.point .count) s
    let s2 := takePassed (.point .camera) s1
    let s3 := takePassed .creation s2
    s.nextPassed = some (.point .count) ∧ s1.due .count = true ∧ s1.nextPassed = some (.point .camera) ∧ s2.nextPassed = some .creation
      ∧ s3.nextPassed = some (.point .count) ∧ (takePassed (.point .count) s3).due .count = false := by decide

theorem test_web_sample :
    let pending := { blank 57 with presence := .pending }
    let s := { live with track := { live.track with records := [pending] } }
    ((after (.webSample false) (dueAt .webSample s)).track.records.map Blank.presence) = [.absent] := by decide

theorem test_window_open :
    ((after (.windowOpen .patch) (dueAt .patchOpen live)).channel .patch).window = some ⟨54, 2600, 200, 20, 57, none⟩ := by decide

/-- Chapter 5's example, blank 301: ε = +30 gives q = 7, the value −7 and a bad judgement. -/
theorem test_window_close :
    let window : WindowRecord := ⟨54, 2600, 200, 20, 57, some 2630⟩
    let s := { live with reg := ⟨Channel.reset, { Channel.reset with window := some window }, none, [⟨54, .fired⟩]⟩ }
    let x := (after (.windowClose .patch) (dueAt .patchClose s)).channel .patch
    x.value = -7 ∧ x.bad = 1 ∧ x.state = .tracking ∧ x.last = .error 54 30 := by decide

theorem test_capture_edge :
    let s := { homedAt 226630 with reg := ⟨Channel.reset, { Channel.reset with window := some ⟨54, 2600, 200, 20, 57, none⟩ }, none, []⟩ }
    ((after (.captureEdge .patch) s).channel .patch).window = some ⟨54, 2600, 200, 20, 57, some 2630⟩ := by decide

theorem test_splice_edge : ((after .spliceEdge live).track.find 57).map (fun b => b.defects.splice) = some true := by decide

/-- R83: the pulse of the knife runs for its width from the firing. -/
theorem test_patch_knife :
    (after .patchKnife (dueAt .patchKnife live)).sched.patchPulse = some 100
      ∧ (after .patchKnife (dueAt .patchKnife live)).reg.knives = [⟨54, .fired⟩] := by decide

theorem test_valve_on_and_off :
    (after (.valveOn 0 0) (dueAt (.valveOn 0 0) live)).sched.outputs.gum[0] = true
      ∧ (after (.valveOff 0 0) (dueAt (.valveOff 0 0) (after (.valveOn 0 0) (dueAt (.valveOn 0 0) live)))).sched.outputs.gum[0] = false := by
  decide

theorem test_void_slot :
    ((after (.voidSlotConsumed (.valveOn 1 0)) (dueAt (.valveOn 1 0) live)).slot (.valveOn 1 0)).cycle = 58
      ∧ (after (.voidSlotConsumed (.valveOn 1 0)) (dueAt (.valveOn 1 0) live)).sched.outputs.gum[1] = false := by decide

theorem test_camera :
    ((after .camera (dueAt .camera live)).track.find 52).map (fun b => b.cameraDone) = some true
      ∧ (after .camera (dueAt .camera live)).sched.outputs.camera = true := by decide

/-- Chapter 6's example, blank 714: no verdict and policy REJECT give UNVERIFIED, DIVERTED and one more reject. -/
theorem test_gate_decision :
    let s := after .gateDecision (dueAt .gate live)
    (s.track.find 51).map (fun b => (b.outcome, b.counted, b.defects.unverified)) = some (.diverted, .reject, true)
      ∧ s.sched.outputs.gate = true ∧ s.batch.current.body.rejects = 1 := by decide

/-- Blank 47 with outcome PASSED, one short of its delivery. -/
def passed : State :=
  { live with track := { live.track with records := { blank 47 with outcome := .passed } :: records.drop 1 } }

/-- R133: the first good blank: the batch adopts slot 0 and its order. -/
theorem test_count_point :
    (after .countPoint (dueAt .count passed)).batch.current.body
      = ⟨1, some ⟨0, 7, 100, 5⟩, 1, 0, 0, some ⟨47, 47⟩, false, false⟩ := by decide

theorem test_kick_and_pulse_end :
    (after .kick (dueAt .kick live)).sched.outputs.kick = true
      ∧ (after (.pulseEnd .kick) { after .kick (dueAt .kick live) with time := 100 }).sched.outputs.kick = false := by decide

/-! ## Satellites (chapter 8's example, entry 2: BELOW 300, dwell 3) -/

/-- Entry 2 polled at time 0, from state `e`. -/
def polled (e : SampleEntry) : State :=
  { live with sat := { live.sat with transaction := some ⟨2, 0, false, 0x48, 1⟩, entries := live.sat.entries.set 2 e } }

theorem test_answer_from_unknown :
    ((after (.transactionAnswer 1 164) (polled SampleEntry.reset)).entry 2) = ⟨.normal, some 420, some 0, 0, 0⟩ := by decide

theorem test_third_answer_beyond_trips :
    ((after (.transactionAnswer 1 4) (polled ⟨.normal, some 270, some 5, 2, 1⟩)).entry 2).state = .tripped := by decide

/-- Entry 5's example: the third no-answer in a row is OFFLINE, and HOLD hands SATELLITE. -/
theorem test_no_acknowledge :
    ((after (.noAcknowledge .register) (polled ⟨.normal, some 270, some 5, 0, 2⟩)).entry 2).state = .offline
      ∧ (after (.noAcknowledge .register) (polled ⟨.normal, some 270, some 5, 0, 2⟩)).run.causes.satellite = true := by decide

theorem test_transaction_timeout :
    (after .transactionTimeout { polled SampleEntry.reset with time := 999 }).sat.transaction = some ⟨2, 0, false, 0x48, 1⟩
      ∧ ((after .transactionTimeout { polled SampleEntry.reset with time := 1000 }).entry 2).failure = 1 := by decide

/-- R150, R151: address 48H reads as 90H and 91H on the bus; a register byte that is refused is followed by a stop condition. -/
theorem test_bus_of_a_poll :
    (after (.transactionAnswer 1 164) (polled SampleEntry.reset)).sat.bus
        = [.start, .sent 0x90 true, .sent 1 true, .repeatedStart, .sent 0x91 true, .received 1 true, .received 164 false, .stop]
      ∧ (after (.noAcknowledge .register) (polled SampleEntry.reset)).sat.bus = [.start, .sent 0x90 true, .sent 1 false, .stop] := by
  decide

theorem test_round_start :
    let s := after .roundStart { live with sat := { live.sat with round := 4, phase := 10000 } }
    s.sat.round = 5 ∧ s.sat.phase = 0 ∧ s.sat.transaction = some ⟨0, 0, false, 0, 0⟩ := by decide

/-! ## Ports (chapter 11's example of four transfers) -/

theorem test_transfer_begin_none_frame :
    ((after (.transferBegin .port2 [0x40, 7, 7, 0, 0, 3]) live).port .port2).miso = [0, 0, 5, 0, 0, 0] := by decide

/-- R189, R201: a transfer open without a whole byte at a hardware reset is ignored, and its end only frees the port. -/
theorem test_reset_with_an_open_transfer :
    let s := after (.hardwareReset false false) (after (.transferBegin .port1 []) live)
    (s.port .port1).transfer = .ignored ∧ (after (.transferBegin .port1 [0x12]) s) = s
      ∧ answer (.stop .port1 7 []) s = none ∧ (after (.stop .port1 7 []) s).run.causes = CauseSet.empty
      ∧ ((after (.stop .port1 7 []) s).port .port1).transfer = .idle := by decide

theorem test_cut_nop_is_a_frame_error : answer (.frame .port1 [0, 9]) live = some ⟨0, 9, .frame, .none, []⟩ := by decide

theorem test_unknown : answer (.unknown .port1 [0x7F, 3, 0]) live = some ⟨0x7F, 3, .unknown, .none, []⟩ := by decide

theorem test_nop_leaves_nothing : answer (.nop .port1 10 []) (after (.frame .port1 [0, 9]) live) = none := by decide

theorem test_identify : answer (.identify .port1 1 []) live = some ⟨1, 1, .ok, .none, [1, 0xC0, 1, 1, 61, 250]⟩ := by decide

/-- R198: HALT is bit 6 of the mask. -/
def subscribed : State := after (.subscribe .port1 2 [0, 0x40]) live

theorem test_subscribe :
    answer (.subscribe .port1 2 [0xF8, 0x40]) live = some ⟨2, 2, .ok, .none, [0, 0x40]⟩
      ∧ (subscribed.port .port1).subscription.halt = true := by decide

/-- R169, R199: STOP posts one HALT notice, and NOTICE_READ returns it and lets ATTN fall. -/
theorem test_stop_and_notice_read :
    let s := after (.stop .port1 3 []) subscribed
    s.run.permit = false ∧ (s.port .port1).attention = true
      ∧ ((after (.noticeRead .port1 4 [8]) s).port .port1).attention = false := by decide

theorem test_clear_halt_while_moving : answer (.clearHalt .port1 5 [1]) live = some ⟨0x13, 5, .refused, .moving, []⟩ := by decide

/-- Chapter 11's overflow example: with 2 lost and 25 queued, a notice queues GAP before itself. -/
theorem test_gap :
    let full := { Port.reset with subscription := ⟨false, false, false, false, false, false, true, false, false, false, false⟩, lost := 3 }
    (full.queueNotice (.halt CauseSet.empty CauseSet.empty CauseSet.empty .off false)).notices
      = [.gap 3, .halt CauseSet.empty CauseSet.empty CauseSet.empty .off false] := by decide

/-! ## Run, configuration, profiles -/

/-- Chapter 10's example: the first START after a hardware reset names SHAFT (section 0, item kind 3). -/
theorem test_start_unconfigured : answer (.start .port1 1 [0]) State.reset = some ⟨0x11, 1, .refused, .invalid, [3, 0, 0]⟩ := by decide

theorem test_start :
    answer (.start .port1 1 [0]) off = some ⟨0x11, 1, .ok, .none, [0, 0, 0, 0, 1]⟩
      ∧ (after (.start .port1 1 [0]) off).run = ⟨.homing, CauseSet.empty, true⟩ := by decide

theorem test_run_reset :
    let s := after (.runReset .port1 1 []) { live with shaft := { live.shaft with motion := .atRest } }
    s.run = RunControl.reset ∧ s.track = ⟨[], 58, none, false, false⟩ ∧ (s.profiles.slot 0).state = .ready := by decide

/-- Chapter 10's example: SHAFT with P = 4,000, NORMAL, creep 100, rest dwell 50, then read back. -/
theorem test_config_write_and_read :
    let s := after (.configWrite .port1 1 [0, 0x0F, 0xA0, 0, 0, 100, 0, 50]) State.reset
    s.config.shaft = ⟨4000, .normal, 100, 50⟩
      ∧ answer (.configRead .port1 2 [0]) s = some ⟨0x19, 2, .ok, .none, [0, 1, 0x0F, 0xA0, 0, 0, 100, 0, 50]⟩ := by decide

theorem test_status : (answer (.status .port1 1 []) live).map Response.result = some .ok := by decide

/-- R27: the signature of "123456789". -/
theorem test_signature : crc16 [0x31, 0x32, 0x33, 0x34, 0x35, 0x36, 0x37, 0x38, 0x39] = 0x29B1#16 := by decide +kernel

/-- Chapter 2's poisoned load: e = 3,000 and W = 1,200 fail R18, and the area is poisoned. -/
theorem test_poisoned_load :
    let opened := after (.stageOpen .port1 1 []) off
    let s := after (.stageWrite .port1 2 [1, 0x0B, 0xB8, 0x04, 0xB0, 0, 40]) opened
    s.staging.holder = some .port1 ∧ s.staging.failed = true
      ∧ answer (.stageCommit .port1 3 [2]) s = some ⟨0x22, 3, .refused, .stagingFailed, []⟩
      ∧ (after (.stageDrop .port1 4 []) s).staging = Staging.free := by decide

theorem test_commit :
    let s :=
      { off with
        profiles :=
          { off.profiles with
            staging := { Staging.free with holder := some .port1, header := some profile.header, print := some profile.print } } }
    ((after (.stageCommit .port1 3 [2]) s).profiles.slot 2).state = .ready := by decide

theorem test_slot_commands :
    ((after (.slotErase .port1 1 [1]) off).profiles.slot 1) = emptySlot
      ∧ answer (.slotRead .port1 2 [0, 1]) off = some ⟨0x25, 2, .ok, .none, [1, 1, 1, 0x07, 0xD0, 0, 100, 0, 20]⟩
      ∧ (answer (.slotSignature .port1 3 [0]) off).map (fun r => r.payload.take 5) = some [1, 0, 0, 0, 7] := by decide

/-- Chapter 2's changeover: SERIAL 1,000 newer than the newest serial is armed, and cancelled. -/
theorem test_changeover_commands :
    let s := after (.changeoverArm .port1 1 [1, 1, 0, 0, 3, 0xE8]) live
    s.profiles.arm = some ⟨1, .serial 1000⟩ ∧ (after (.changeoverCancel .port1 2 []) s).profiles.arm = none := by decide

theorem test_register_and_satellite_read :
    (answer (.registerRead .port1 1 []) live).map Response.result = some .ok
      ∧ answer (.satelliteRead .port1 1 [8]) live = some ⟨0x50, 1, .refused, .invalid, [0, 0, 1]⟩ := by decide

/-! ## Verdicts and batches -/

/-- Blank 51 with its camera fired. -/
def pictured : State := { live with track := { live.track with records := [{ blank 51 with cameraDone := true }] } }

/-- Chapter 6's example: the first verdict of an expected source is stored, and an unexpected source refused. -/
theorem test_verdict :
    answer (.verdict .port1 7 [0, 0, 0, 51, 0, 1, 42]) pictured = some ⟨0x40, 7, .ok, .none, [0, 0, 0, 51, 0, 1, 0, 1]⟩
      ∧ answer (.verdict .port1 7 [0, 0, 0, 51, 1, 1, 42]) pictured
        = some ⟨0x40, 7, .refused, .notExpected, [0, 0, 0, 51, 1, 1, 0, 0]⟩ := by decide

theorem test_track_read_of_a_new_serial :
    answer (.trackRead .port1 7 [0, 0, 0, 58]) live = some ⟨0x30, 7, .refused, .unknownSerial, []⟩
      ∧ answer (.trackRead .port1 7 [0, 0, 0, 46]) live = some ⟨0x30, 7, .refused, .gone, []⟩ := by decide

/-- One closed batch, number 31, and an open batch 32 with one good blank. -/
def batched : State :=
  { live with
    batch :=
      ⟨⟨⟨32, some ⟨0, 7, 100, 5⟩, 1, 0, 0, some ⟨47, 47⟩, false, false⟩, .none⟩,
        [⟨⟨31, some ⟨0, 7, 100, 5⟩, 100, 2, 0, some ⟨1, 46⟩, false, false⟩, .target⟩]⟩ }

theorem test_batch_commands :
    answer (.batchClose .port1 1 []) batched = some ⟨0x48, 1, .ok, .none, [0, 0, 0, 32, 1]⟩
      ∧ (answer (.batchPeek .port1 2 []) batched).map (fun r => r.payload.take 6) = some [1, 0, 0, 0, 0, 31]
      ∧ answer (.batchAck .port1 3 [0, 0, 0, 30]) batched = some ⟨0x4A, 3, .refused, .mismatch, [0, 0, 0, 31]⟩
      ∧ answer (.batchAck .port1 3 [0, 0, 0, 31]) batched = some ⟨0x4A, 3, .ok, .none, [0, 0, 0, 31, 0]⟩ := by decide

/-- R16, R144: hardware reset returns the batch counter to number 1 and the shaft to no position. -/
theorem test_hardware_reset :
    (after (.hardwareReset true false) batched).batch = Batches.reset ∧ (after (.hardwareReset true false) batched).shaft.homed = false
      ∧ (after (.hardwareReset true false) batched).shaft.quadA = true := by decide

/-! ## Witnesses: for each statement with hypotheses, states and operands that meet them

A statement of several clauses has one witness per clause, at the boundary values of its ranges. -/

theorem witness_StepTakesTheFrontCommand : { live with pending := [.tick] }.pending = .tick :: [] := rfl

/-- A count forward at distance 2 × P − 1, and one in reverse; the count that reaches the boundary of H = 57, and the one before it. -/
theorem witness_CountsMoveTheShaft :
    ((live.shaft.quadA, live.shaft.quadB), (true, false)) ∈ encoderSteps
      ∧ forwardDistance 4000 (homedAt 231998).shaft.position 224000 + 1 = 2 * 4000 - 1
      ∧ ((false, true), (live.shaft.quadA, live.shaft.quadB)) ∈ encoderSteps
      ∧ (markPassed 227999 (homedAt 228000)).nextPassed = some .creation ∧ (markPassed 227998 (homedAt 227999)).NothingPassed :=
  ⟨by decide, by decide, by decide, by decide, nextPassed_eq_none.mp (by decide)⟩

/-- δ = 5 and δ = −5; a standing distance of 2 × P; a count that reaches it. -/
theorem witness_EncoderFaultsAreTaken :
    (homedAt 224005).shaft.homed = true ∧ 224005 % 4000 = 5 ∧ 227995 % 4000 = 3995
      ∧ (homedAt 232000).shaft.lastDir = .forward ∧ atOrBeyond 4000 232000 224000 = true
      ∧ forwardDistance 4000 232000 224000 = 2 * 4000
      ∧ live.config.shaft.sense = .normal ∧ ((live.shaft.quadA, live.shaft.quadB), (true, false)) ∈ encoderSteps
      ∧ ((homedAt 231999).shaft.position + 1) % (2 ^ 32 * live.pitch) = 232000 := by decide

theorem witness_UnhomedShaftRaisesNoFault :
    off.shaft.homed = false ∧ off.run.runState = .off ∧ homing.shaft.homed = false
      ∧ { homing with shaft := { homing.shaft with lastDir := .reverse } }.shaft.lastDir ≠ .forward := by decide

/-- δ = 0, 1, 4, −1 and −4. -/
theorem witness_IndexEdgeCorrectsThePosition :
    live.shaft.homed = true ∧ 224000 % live.pitch = 0 ∧ 224001 % live.pitch = 1 ∧ 224004 % live.pitch = 4
      ∧ 227999 % live.pitch = live.pitch - 1 ∧ 227996 % live.pitch = live.pitch - 4
      ∧ (markPassed 227998 (homedAt 228000)).nextPassed = some .creation ∧ { live with track := { live.track with highWater := some 58 } }.NothingPassed :=
  ⟨by decide, by decide, by decide, by decide, by decide, by decide, by decide, nextPassed_eq_none.mp (by decide)⟩

/-- An open batch of `slot` with `good` blanks. -/
def openWith (slot : Fin 4) (good : Nat) (held : Bool) (why : ClosePending) : OpenBatch :=
  ⟨⟨9, some ⟨slot, 7, 100, 5⟩, good, 0, 0, some ⟨1, 46⟩, held, false⟩, why⟩

/-- Homing after a fault: blanks 47 to 57 held, and slot 2 RETIRING. -/
def homingAgain : State :=
  { homing with
    track := ⟨records, 58, some 57, false, false⟩
    profiles := { homing.profiles with slots := ⟨#[filled .active, emptySlot, filled .retiring, emptySlot], rfl⟩ } }

/-- A first homing, and one with records and a RETIRING slot that the open batch does not carry, or does. -/
theorem witness_ForwardIndexEdgeHomes :
    homing.shaft.homed = false ∧ homing.run.runState = .homing ∧ homing.shaft.lastDir = .forward ∧ 1 ≤ homing.pitch
      ∧ homing.config.stations.delivery ≤ 31 ∧ homing.track.records = []
      ∧ (changeoverAt 213 homing).profiles.active = some 0
      ∧ homingAgain.track.records.head? = some (blank 47) ∧ homingAgain.track.records.getLast? = some (blank 57)
      ∧ (homingAgain.profiles.slot 2).state = .retiring
      ∧ (∀ j : Fin 4, (homingAgain.profiles.slot j).state = .retiring → j = 2)
      ∧ homingAgain.batch.current.body.order = none
      ∧ (openWith 2 5 false .none).body.order.map BatchOrder.slot = some 2
      ∧ ∀ i : Fin 4, (homing.profiles.slot i).state ≠ .retiring := by decide

/-- R49, R52, R164: the homing after a fault posts TRACK_FLUSHED, then PROFILE_RETIRED, then RUN_STATE, and tracks blank 58 alone. -/
theorem test_homing_after_a_fault :
    let listener : Port :=
      { Port.reset with subscription := ⟨false, false, true, false, false, false, false, true, false, false, true⟩ }
    let t := after (.indexEdge true) (homingAgain.setPort .port1 listener)
    (t.port .port1).notices
        = [.trackFlushed 47 57, .profileRetired 2 7,
            .runState .homing .live .homed (some 0) (some 58) 59 CauseSet.empty true]
      ∧ t.track.records.map Blank.serial = [58] := by decide +kernel

/-- The kick and a disabled valve are left out; an enabled valve and the gate are armed. -/
theorem witness_HomingArmsTheSlots :
    TimedPoint.kick ∉ homingPoints config ∧ TimedPoint.valveOn 3 0 ∉ homingPoints config ∧ TimedPoint.valveOn 0 3 ∈ homingPoints config
      ∧ TimedPoint.gate ∈ homingPoints config := by decide

/-- At the creation boundary with slot 2 RETIRING, which record `b` alone may reference. -/
def leavingWith (b : Blank) : State :=
  { atBoundary with
    track := { atBoundary.track with records := b :: records.drop 1 }
    profiles := { live.profiles with slots := ⟨#[filled .active, emptySlot, filled .retiring, emptySlot], rfl⟩ } }

/-- R34, R45: with blank 47 gone, slot 2 that it alone referenced becomes READY. -/
theorem test_creation_retires_a_slot :
    let s := leavingWith { blank 47 with slot := 2 }
    (s.profiles.slot 2).state = .retiring ∧ ((after .blankCreation s).profiles.slot 2).state = .ready := by decide

/-- Before the creation boundary of H = 57, and with it passed; a RETIRING slot whose last record leaves, and one that is kept by the open
batch. -/
theorem witness_BlankIsCreatedAtTheBoundary :
    live.track.highWater = some 57 ∧ live.config.stations.delivery ≤ 31 ∧ (homedAt 227999).track.boundaryPassed = false
      ∧ atBoundary.track.boundaryPassed = true ∧ atBoundary.profiles.active = some 0 ∧ atBoundary.profiles.arm = none
      ∧ (createBlank atBoundary).NothingPassed
      ∧ (58 : Serial) - BitVec.ofNat 32 (live.config.stations.delivery + 1) = 47
      ∧ (∃ b ∈ (leavingWith { blank 47 with slot := 2 }).track.records, b.serial = 47)
      ∧ ((leavingWith { blank 47 with slot := 2 }).profiles.slot 2).state = .retiring
      ∧ (∀ j : Fin 4, ((leavingWith { blank 47 with slot := 2 }).profiles.slot j).state = .retiring → j = 2)
      ∧ (¬∃ b ∈ (leavingWith { blank 47 with slot := 2 }).track.records.filter fun b => !(b.serial == 47), b.slot = 2)
      ∧ (leavingWith { blank 47 with slot := 2 }).batch.current.body.order = none
      ∧ (createBlank (leavingWith { blank 47 with slot := 2 })).NothingPassed
      ∧ (openWith 2 5 false .none).body.order.map BatchOrder.slot = some 2
      ∧ ∀ i : Fin 4, (atBoundary.profiles.slot i).state ≠ .retiring :=
  ⟨by decide, by decide, by decide, by decide, by decide, by decide, nextPassed_eq_none.mp (by decide), by decide, by decide, by decide,
    by decide, by decide, by decide, nextPassed_eq_none.mp (by decide), by decide, by decide⟩

/-- At time 0 with PATCH ending at `ends`, a transaction of entry 2 begun at `start` and the first round due at `first`. -/
def timed (ends start first : Nat) : State :=
  { live with
    sched := { live.sched with patchPulse := some ends, outputs := { live.sched.outputs with patch := true } }
    sat := { live.sat with transaction := some ⟨2, start, false, 0x48, 1⟩, firstRound := some first } }

/-- R83, R148, R151: a tick takes the pulse end at 1,000 µs, the timeout at 1,000 µs and the round at 1,000 µs, and none of those at
1,001 µs. -/
theorem test_tick_takes_what_falls_due :
    let s := after .tick (timed 1000 0 1000)
    let t := after .tick (timed 1001 1 1001)
    (s.sched.patchPulse = none ∧ s.sched.outputs.patch = false ∧ (s.entry 2).failure = 1 ∧ s.sat.round = 0 ∧ s.sat.firstRound = none)
      ∧ t.sched.patchPulse = some 1001 ∧ t.sched.outputs.patch = true ∧ (t.entry 2).failure = 0 ∧ t.sat.firstRound = some 1001 := by
  decide +kernel

/-- No event of the time base before the tick; those of the tick's own moment and of the microsecond after it; an armed compensated slot
in LIVE. -/
theorem witness_TickUpdatesSpeedAndMotion :
    (∀ m ∈ live.moments, (live.time / 1000 + 1) * 1000 < m.time) ∧ (armSlot (.valveOn 0 0) 57 live).recomputed (.valveOn 0 0) = true
      ∧ live.run.runState = .live ∧ homing.run.runState ≠ .live
      ∧ (timed 1000 0 1000).sched.endsBy 1000 .patch = true ∧ (timed 1001 1 1001).sched.endsBy 1000 .patch = false
      ∧ (timed 1000 0 1000).Awaits .roundStart 1000 ∧ (timed 1000 0 1000).time < 0 + 1000
      ∧ (timed 1001 1 1001).sat.transaction = some ⟨2, 1, false, 0x48, 1⟩ := by
  refine ⟨by decide, by decide, by decide, by decide, by decide, by decide, .inr (.inr ⟨rfl, rfl, .inl rfl⟩), by decide, rfl⟩

def resting : State := { live with shaft := { live.shaft with restCounter := 50 } }

/-- Rest counter 49 and 50; in LIVE and in HOMING. -/
theorem witness_RestClosesTheValves :
    resting.shaft.motion = .moving ∧ resting.shaft.restCounter = resting.config.shaft.restDwell
      ∧ resting.shaft.window.sum.natAbs < resting.config.shaft.creep ∧ resting.run.runState = .live
      ∧ { resting with run := homing.run }.run.runState ≠ .live
      ∧ { resting with shaft := { resting.shaft with restCounter := 49 } }.shaft.restCounter ≠ resting.config.shaft.restDwell := by
  decide

def armed (t : Trigger) : State :=
  { live with
    profiles := { live.profiles with slots := ⟨#[filled .active, filled .staged, emptySlot, emptySlot], rfl⟩, arm := some ⟨1, t⟩ } }

/-- SERIAL 58 is met at blank 58 and not at 57. -/
theorem witness_ChangeoverIsTakenAtACreation :
    (armed (.serial 58)).SlotsLawful ∧ (armed (.serial 58)).profiles.arm = some ⟨1, .serial 58⟩
      ∧ (armed (.serial 58)).profiles.active = some 0 ∧ (58 : Serial) = 58 ∧ (57 : Serial) ≠ 58 := by
  refine ⟨⟨?_, ?_, ?_, ?_⟩, by decide, by decide, rfl, by decide⟩
  · unfold Profiles.OneEach Profiles.AtMostOne; decide
  · unfold Profiles.Signed; decide +kernel
  · unfold Profiles.ArmHoldsStaged; decide
  · unfold State.ActiveOutsideOff; decide

theorem witness_SpliceEdgeMarksTheNewestBlank :
    off.run.runState = .off ∧ homing.run.runState = .homing ∧ live.run.runState = .live ∧ live.track.highWater = some 57
      ∧ live.track.find 57 = some (blank 57) ∧ (blank 57).defects.splice = false
      ∧ (Blank.created 57 0 true).defects.splice = true := by decide

def unsampled : State :=
  { live with track := { live.track with records := records.map fun b => { b with presence := .pending } } }

theorem witness_WebSampleSetsThePresence :
    (dueAt .webSample unsampled).due .webSample = true ∧ ((dueAt .webSample unsampled).slot .webSample).angle.isSome = true
      ∧ (dueAt .webSample unsampled).track.find 57 = some { blank 57 with presence := .pending }
      ∧ ((dueAt .webSample unsampled).slot .webSample).serial = 57 ∧ (dueAt .webSample unsampled).reg.waiting = none := by decide

/-- The same with the PRINT judgement of blank 57 waiting. -/
theorem witness_WebSampleJudgesTheWaiting :
    let s := dueAt .webSample { unsampled with reg := { unsampled.reg with waiting := some ⟨57, 2000, 100, 20, 57, some 2020⟩ } }
    s.due .webSample = true ∧ (s.slot .webSample).angle.isSome = true ∧ (s.slot .webSample).serial = 57
      ∧ s.reg.waiting = some ⟨57, 2000, 100, 20, 57, some 2020⟩ ∧ s.profiles.contentOf 0 = some profile := by decide

theorem witness_WindowOpensWithItsBlanksSection :
    ((dueAt .printOpen live).FiresOnce .printOpen ∧ ((dueAt .printOpen live).slot .printOpen).angle.isSome = true
        ∧ (dueAt .printOpen live).profileOf 57 = some profile ∧ profile.print = ⟨2000, 100, 20⟩)
      ∧ (dueAt .patchOpen live).FiresOnce .patchOpen ∧ ((dueAt .patchOpen live).slot .patchOpen).angle.isSome = true
        ∧ (dueAt .patchOpen live).profileOf 54 = some profile ∧ profile.patch = some ⟨1800, 2600, 200, 20⟩ := by
  refine ⟨⟨⟨by decide, by decide⟩, by decide, by decide, by decide⟩, ⟨by decide, by decide⟩, by decide, by decide, by decide⟩

def printWindow : WindowRecord := ⟨57, 2000, 100, 20, 57, none⟩

def watching (position : Nat) : State :=
  { homedAt position with reg := { live.reg with print := { Channel.reset with window := some printWindow } } }

/-- The last count before the window, its first, its last, and the first behind it. -/
theorem witness_CaptureEdgeIsHeldInsideItsWindow :
    (live.channel .print).window = none ∧ ((watching 225900).channel .print).window = some printWindow ∧ printWindow.w ≤ printWindow.e
      ∧ printWindow.capture = none ∧ (watching 225900).shaft.lastDir = .forward
      ∧ atOrBeyond 4000 225899 (224000 + 1900) = false ∧ atOrBeyond 4000 225900 (224000 + 1900) = true
      ∧ atOrBeyond 4000 226099 (224000 + 2100) = false ∧ atOrBeyond 4000 226100 (224000 + 2100) = true := by decide

/-- The PRINT window of blank 57 and the PATCH window of blank 54, held with `capture`, at their close points. -/
def closing (presence : Presence) (capture : Option Nat) (bad : Nat) (knife : KnifeOutcome) : State :=
  { live with
    track := { live.track with records := records.map fun b => { b with presence := presence } }
    reg :=
      ⟨{ Channel.reset with window := some { printWindow with capture := capture }, bad := bad },
        { Channel.reset with window := some ⟨54, 2600, 200, 20, 57, capture⟩, bad := bad }, none, [⟨54, knife⟩]⟩ }

theorem witness_WindowResultsAreDiscardedOrWait :
    ((dueAt .printClose (closing .absent none 0 .fired)).FiresOnce .printClose
        ∧ ((dueAt .printClose (closing .absent none 0 .fired)).slot .printClose).angle.isSome = true
        ∧ (dueAt .printClose (closing .absent none 0 .fired)).track.find 57 = some { blank 57 with presence := .absent })
      ∧ ((dueAt .printClose (closing .pending none 0 .fired)).FiresOnce .printClose
        ∧ (dueAt .printClose (closing .pending none 0 .fired)).track.find 57 = some { blank 57 with presence := .pending })
      ∧ (dueAt .patchClose (closing .present none 0 .suppressed)).FiresOnce .patchClose
        ∧ (dueAt .patchClose (closing .present none 0 .suppressed)).reg.knives = [⟨54, .suppressed⟩] := by
  refine ⟨⟨⟨by decide, by decide⟩, by decide, by decide⟩, ⟨⟨by decide, by decide⟩, by decide⟩, ⟨by decide, by decide⟩, by decide⟩

/-- On PRINT an error of T is good and one of T + 1 bad; on PATCH a third bad judgement loses the channel. -/
theorem witness_WindowResultsAreJudged :
    ((dueAt .printClose (closing .present (some 2020) 0 .fired)).FiresOnce .printClose
        ∧ ((dueAt .printClose (closing .present (some 2020) 0 .fired)).slot .printClose).angle.isSome = true
        ∧ ((dueAt .printClose (closing .present (some 2020) 0 .fired)).channel .print).window
          = some { printWindow with capture := some 2020 }
        ∧ (dueAt .printClose (closing .present (some 2020) 0 .fired)).track.find 57 = some (blank 57)
        ∧ (dueAt .printClose (closing .present (some 2020) 0 .fired)).profiles.contentOf 0 = some profile
        ∧ WindowRecord.isBad { printWindow with capture := some 2020 } = false
        ∧ WindowRecord.isBad { printWindow with capture := some 2021 } = true)
      ∧ (dueAt .patchClose (closing .present none 2 .fired)).FiresOnce .patchClose
        ∧ (dueAt .patchClose (closing .present none 2 .fired)).reg.knives.find? (fun k => k.serial == 54) = some ⟨54, .fired⟩
        ∧ ((dueAt .patchClose (closing .present none 2 .fired)).channel .patch).goesLost ⟨54, 2600, 200, 20, 57, none⟩ = true := by
  refine ⟨⟨⟨by decide, by decide⟩, by decide, by decide, by decide, by decide, by decide, by decide⟩, ⟨by decide, by decide⟩,
    by decide, by decide⟩

def correcting (value : Int) : State :=
  (armSlot .patchKnife 57 live).setChannel .patch { Channel.reset with value := value }

/-- Knife angle 1,800: the corrections 2,199 and −3,800 stand at the clamps, 2,200 and −3,801 beyond them. -/
theorem witness_TargetsAreCompensatedAndClamped :
    1 ≤ live.pitch ∧ ((correcting 2199).slot .patchKnife).angle = some 1800 ∧ leadOf live.config .patchKnife = some 800
      ∧ (live.shaft.speed * 800 + 8000) / 16000 = 0 ∧ (1800 : Int) + 2199 = 4000 - 1 ∧ (1800 : Int) + (-3800) = -2000
      ∧ (clampedRelative 4000 (1800 + 2200)).clamped = true ∧ (clampedRelative 4000 (1800 - 3801)).clamped = true
      ∧ ((correcting 2200).slot .patchKnife).clampNoted = false ∧ ((armSlot (.valveOn 1 0) 57 live).slot (.valveOn 1 0)).angle = none
      ∧ ((armSlot .count 57 live).slot .count).angle = some 1000 ∧ leadOf live.config .count = none := by decide

/-- An OFF whose ON has fired, and one whose ON has not. -/
theorem witness_ValveOffStaysBehindItsOn :
    ((dueAt (.valveOff 0 0) live).slot (.valveOff 0 0)).angle = some 1700
      ∧ ((dueAt (.valveOff 0 0) live).slot (.valveOff 0 0)).onAngle = some 1100
      ∧ (live.sched.segments[0].find? fun i => i.segment == 0 && i.cycle == 57) = none
      ∧ ((openSegment 0 ⟨0, 57, 225100⟩ live).sched.segments[0].find? fun i => i.segment == 0 && i.cycle == 57)
        = some ⟨0, 57, 225100⟩
      ∧ (offRelative 4000 (-2000) 0).clamped = false ∧ (offRelative 4000 (-2001) 0).clamped = true
      ∧ (offRelative 4000 1700 3999).clamped = false ∧ (offRelative 4000 1700 4000).clamped = true := by decide

/-- A knife that fires, and one at rest. -/
theorem witness_PatchKnifeFiresOrIsSuppressed :
    (dueAt .patchKnife live).FiresOnce .patchKnife ∧ ((dueAt .patchKnife live).slot .patchKnife).angle.isSome = true
      ∧ (dueAt .patchKnife live).track.find 54 = some (blank 54) ∧ knifeFires (dueAt .patchKnife live) (blank 54) = true
      ∧ (dueAt .patchKnife { live with shaft := { live.shaft with motion := .atRest } }).FiresOnce .patchKnife
      ∧ knifeFires { live with shaft := { live.shaft with motion := .atRest } } (blank 54) = false := by
  refine ⟨⟨by decide, by decide⟩, by decide, by decide, by decide, ⟨by decide, by decide⟩, by decide⟩

theorem witness_ValveOnOpensItsSegment :
    (dueAt (.valveOn 0 0) live).FiresOnce (.valveOn 0 0) ∧ ((dueAt (.valveOn 0 0) live).slot (.valveOn 0 0)).angle.isSome = true
      ∧ (dueAt (.valveOn 0 0) live).track.find 53 = some (blank 53) ∧ valveOnFires (dueAt (.valveOn 0 0) live) (blank 53) = true
      ∧ valveOnFires (dueAt (.valveOn 0 0) live) { blank 53 with presence := .absent } = false := by
  refine ⟨⟨by decide, by decide⟩, by decide, by decide, by decide, by decide⟩

theorem witness_ValveOffClosesItsSegment :
    (dueAt (.valveOff 0 0) live).FiresOnce (.valveOff 0 0)
      ∧ ((dueAt (.valveOff 0 0) live).slot (.valveOff 0 0)).angle.isSome = true := by
  refine ⟨⟨by decide, by decide⟩, by decide⟩

theorem witness_VoidSlotIsConsumed :
    (TimedPoint.valveOn 1 0).canBeVoid = true ∧ (dueAt (.valveOn 1 0) live).FiresOnce (.valveOn 1 0)
      ∧ ((dueAt (.valveOn 1 0) live).slot (.valveOn 1 0)).angle = none := by
  refine ⟨by decide, ⟨by decide, by decide⟩, by decide⟩

theorem witness_CameraFiresForPresentBlanks :
    (dueAt .camera live).FiresOnce .camera ∧ ((dueAt .camera live).slot .camera).angle.isSome = true
      ∧ (dueAt .camera live).track.find 52 = some (blank 52) ∧ (dueAt .camera live).profiles.contentOf 0 = some profile
      ∧ cameraFires profile (blank 52) = true ∧ cameraFires profile { blank 52 with presence := .absent } = false := by
  refine ⟨⟨by decide, by decide⟩, by decide, by decide, by decide, by decide, by decide⟩

/-- A pulse one microsecond before its end, and at it. -/
theorem witness_KickAndPulseEnds :
    (dueAt .kick live).due .kick = true ∧ ((dueAt .kick live).slot .kick).angle.isSome = true
      ∧ (startPulse .kick live).sched.pulse .kick = some 100 ∧ { live with time := 99 }.time < 100
      ∧ 100 ≤ { live with time := 100 }.time := by decide

/-- A PRESENT and an ABSENT blank at the gate; a reject count one below its limit. -/
theorem witness_GateDecidesItsBlank :
    ((dueAt .gate live).FiresOnce .gate ∧ ((dueAt .gate live).slot .gate).angle.isSome = true
        ∧ (dueAt .gate live).track.find 51 = some (blank 51) ∧ (dueAt .gate live).profiles.contentOf 0 = some profile
        ∧ (blank 51).presence ≠ .pending ∧ (blank 51).outcome = .pending ∧ (blank 51).counted = .no
        ∧ (∀ r ∈ (dueAt .gate live).track.records, r.serial = 51 → r = blank 51) ∧ 4294967294 + 1 < 2 ^ 32)
      ∧ (dueAt .gate (closing .absent none 0 .fired)).FiresOnce .gate
        ∧ (dueAt .gate (closing .absent none 0 .fired)).track.find 51 = some { blank 51 with presence := .absent } := by
  refine ⟨⟨⟨by decide, by decide⟩, by decide, by decide, by decide, by decide, by decide, by decide, by decide, by decide⟩,
    ⟨by decide, by decide⟩, by decide⟩

def closedRecord (n : Serial) : ClosedBatch := ⟨⟨n, some ⟨0, 7, 100, 5⟩, 100, 0, 0, some ⟨1, 46⟩, false, false⟩, .target⟩

def queued (n : Nat) (held : Bool) : State :=
  { live with
    batch :=
      ⟨⟨⟨BitVec.ofNat 32 (n + 1), some ⟨0, 7, 100, 5⟩, 1, 0, 0, some ⟨47, 47⟩, held, false⟩, if held then .target else .none⟩,
        (List.range n).map fun i => closedRecord (BitVec.ofNat 32 (i + 1))⟩ }

/-- A PASSED blank 47 at its count point that meets the open batch `b` with `n` closed records queued. -/
def meeting (b : OpenBatch) (n : Nat) : State :=
  dueAt .count { passed with batch := ⟨b, (List.range n).map fun i => closedRecord (BitVec.ofNat 32 (i + 1))⟩ }

/-- An undecided blank; a PASSED blank that opens a batch; a stray of a held batch; a batch one below its target; a pending close; and
a held batch at its overrun of 105. -/
theorem witness_CountPointCountsPassedBlanks :
    ((dueAt .count live).FiresOnce .count ∧ ((dueAt .count live).slot .count).angle.isSome = true
        ∧ (dueAt .count live).track.find 47 = some (blank 47) ∧ (blank 47).outcome ≠ .passed)
      ∧ ((dueAt .count passed).FiresOnce .count ∧ (dueAt .count passed).track.find 47 = some { blank 47 with outcome := .passed }
        ∧ (dueAt .count passed).profiles.contentOf 0 = some profile ∧ (dueAt .count passed).batch.current.body.order = none)
      ∧ ((meeting (openWith 1 50 true .changeover) 8).FiresOnce .count
        ∧ (attemptOrderChange 0 57 (attemptPending 57 (meeting (openWith 1 50 true .changeover) 8))).batch.current.body.otherSlot 0 = true)
      ∧ ((meeting (openWith 0 99 false .none) 7).FiresOnce .count ∧ (100 : Nat) ≤ Nat.min (2 ^ 32 - 1) (99 + 1))
      ∧ ((meeting (openWith 0 50 false .command) 7).FiresOnce .count
        ∧ (meeting (openWith 0 50 false .command) 7).batch.current.pending ≠ .none)
      ∧ (meeting (openWith 0 104 true .target) 8).FiresOnce .count ∧ (100 + 5 : Nat) ≤ (104 + 1) + 0 := by
  refine ⟨⟨⟨by decide, by decide⟩, by decide, by decide, by decide⟩, ⟨⟨by decide, by decide⟩, by decide, by decide, by decide⟩,
    ⟨⟨by decide, by decide⟩, by decide⟩, ⟨⟨by decide, by decide⟩, by decide⟩, ⟨⟨by decide, by decide⟩, by decide⟩,
    ⟨by decide, by decide⟩, by decide⟩

/-- `queued 7` with slot `i` RETIRING. -/
def retiring (i : Fin 4) : State :=
  { queued 7 false with
    profiles := { (queued 7 false).profiles with slots := (queued 7 false).profiles.slots.set i.val (filled .retiring) } }

/-- 7 and 8 closed records, the batch held and not held; a RETIRING slot that records carry, and one that none does; in LIVE and not. -/
theorem witness_CloseAttemptsCloseOrHold :
    (queued 7 false).batch.queue.length = 7 ∧ (queued 8 false).batch.queue.length = 8
      ∧ (queued 8 false).batch.current.body.held = false ∧ (queued 8 true).batch.current.body.held = true
      ∧ (queued 8 false).batch.current.body.order = some ⟨0, 7, 100, 5⟩
      ∧ (∀ i : Fin 4, ((queued 7 false).profiles.slot i).state ≠ .retiring) ∧ (queued 7 false).run.runState = .live
      ∧ { queued 7 false with run := off.run }.run.runState ≠ .live ∧ ((retiring 0).profiles.slot 0).state = .retiring
      ∧ (∀ j : Fin 4, ((retiring 0).profiles.slot j).state = .retiring → j = 0)
      ∧ (∃ b ∈ (retiring 0).track.records, b.slot = 0) ∧ ¬∃ b ∈ (retiring 2).track.records, b.slot = 2 := by decide

def rounding (phase : Nat) (first : Option Nat) : State := { live with sat := { live.sat with phase := phase, firstRound := first } }

/-- Round phase 9,999 and 10,000; round 0 at its first tick; a stopped poller. -/
theorem witness_RoundsStartOnTheirRhythm :
    (rounding 9999 none).sat.running = true ∧ ¬(10000 ≤ (rounding 9999 none).sat.phase) ∧ 10000 ≤ (rounding 10000 none).sat.phase
      ∧ (rounding 0 (some 0)).sat.firstRound = some 0 ∧ off.sat.running = false := by decide

theorem witness_AnswersAreJudgedAgainstTheThreshold :
    (polled SampleEntry.reset).sat.transaction = some ⟨2, 0, false, 0x48, 1⟩
      ∧ ((polled ⟨.tripped, some 270, some 5, 2, 0⟩).entry 2).state = .tripped := by decide

/-- At the timeout; a third failure. -/
theorem witness_NoAnswersCountTowardOffline :
    (polled SampleEntry.reset).sat.transaction = some ⟨2, 0, false, 0x48, 1⟩ ∧ 0 + 1000 ≤ { polled SampleEntry.reset with time := 1000 }.time
      ∧ ((polled ⟨.normal, none, none, 0, 2⟩).entry 2).failure + 1 = 3 := by decide

def discarded (waiting : Bool) : State :=
  { live with sat := { live.sat with transaction := some ⟨2, 0, true, 0x48, 1⟩, pollWaiting := waiting } }

theorem witness_DiscardedTransactionsReachNoEntry :
    (discarded true).sat.transaction = some ⟨2, 0, true, 0x48, 1⟩ ∧ (discarded false).sat.pollWaiting = false
      ∧ 0 + 1000 ≤ { discarded false with time := 1000 }.time := by decide

def shifting : State := after (.transferBegin .port1 [0x10]) live

/-- A port that is IDLE, one whose transfer is open, one whose transfer stood open at a hardware reset. -/
theorem witness_TransfersShiftOutThePendingResponse :
    (live.port .port1).transfer = .idle ∧ (shifting.port .port1).transfer = .shifting [0x10]
      ∧ ((after (.hardwareReset false false) shifting).port .port1).transfer = .ignored := by decide

/-- An IDLE port; an open one with an end that goes on from its bytes and one that contradicts them; L at 61 and 62, a frame of exactly 3 + L bytes and one a byte short, a code outside the index, a NOP of 61 bytes. -/
theorem witness_TransfersEndByTheirFrames :
    live.CanEnd .port1 [0] ∧ (live.port .port1).transferBytes [0x10, 7, 62] = some [0x10, 7, 62]
      ∧ (live.port .port1).transferBytes [0x7F, 7, 1, 0] = some [0x7F, 7, 1, 0] ∧ (0x7F : Byte) ∉ commandCodes
      ∧ ([0x10, 7, 1] : List Byte).length < 3 + 1 ∧ (0x10 : Byte) ∈ commandCodes
      ∧ live.CanEnd .port1 (commandFrame 0 7 (List.replicate 61 0))
      ∧ (live.port .port1).transfer = .idle ∧ (shifting.port .port1).transfer = .shifting [0x10]
      ∧ ([0x10] : List Byte) <+: [0x10, 7, 0] ∧ ([] : List Byte) <+: [0x10]
      ∧ (¬([0x10] : List Byte) <+: [0x11, 7, 0] ∧ ¬([0x11, 7, 0] : List Byte) <+: [0x10])
      ∧ ((after (.transferBegin .port1 []) live).port .port1).transfer = .shifting []
      ∧ ((after (.hardwareReset false false) shifting).port .port1).transfer = .ignored
      ∧ (Instr.stop .port1 7 []).port = some .port1 := by
  unfold State.CanEnd; decide

/-- R190: of a transfer without a TRANSFER_BEGIN the pending response goes out first, then zeros; the subscription stays. -/
theorem test_a_whole_transfer_shifts_out_the_response :
    let s := after (.unknown .port1 [0x7F, 3, 0]) subscribed
    let t := after (.nop .port1 10 [1, 2, 3]) s
    (t.port .port1).miso = [0x7F, 3, 3, 0, 0, 0] ∧ (t.port .port1).subscription = (subscribed.port .port1).subscription := by
  decide

theorem witness_WrongLengthsAreRefused :
    (Instr.start, (0x11 : Byte), 1) ∈ fixedLengths ∧ ([] : List Byte).length ≠ 1 ∧ (List.replicate 61 (0 : Byte)).length ≤ 61
      ∧ live.CanEnd .port1 (commandFrame 0x11 7 (List.replicate 61 0)) := by
  refine ⟨by simp [fixedLengths], by decide, by decide, by unfold State.CanEnd; decide⟩

theorem witness_CommandsLeaveOtherPortsAlone :
    (Instr.stop .port1 7 []).port = some .port1 ∧ PortId.port2 ≠ .port1
      ∧ exec (.stop .port1 7 []) live = .next (after (.stop .port1 7 []) live) := ⟨rfl, by decide, rfl⟩

/-- Section 12 and 13, entry 7 and 8, slot 3 and 4, profile section 6 and 7; an EMPTY slot and one with a content. -/
theorem witness_ReadCommandsChangeNothing :
    (Instr.status, (0x10 : Byte)) ∈ readCommands ∧ live.CanEnd .port1 (commandFrame 0x10 7 [])
      ∧ live.CanEnd .port1 (commandFrame 0x10 7 (List.replicate 61 0)) ∧ live.shaft.cyclesPerMinute < 65536
      ∧ live.CanEnd .port1 (commandFrame 0x38 7 []) ∧ live.CanEnd .port1 (commandFrame 0x19 7 [13])
      ∧ live.CanEnd .port1 (commandFrame 0x50 7 [8]) ∧ live.CanEnd .port1 (commandFrame 0x26 7 [4])
      ∧ live.CanEnd .port1 (commandFrame 0x25 7 [4, 0]) ∧ live.CanEnd .port1 (commandFrame 0x25 7 [3, 7])
      ∧ 13 ≤ (13 : Byte).toNat ∧ (12 : Byte).toNat = (ConfigSection.sat 7).code ∧ 8 ≤ (8 : Byte).toNat
      ∧ (7 : Byte).toNat = (7 : Fin 8).val ∧ 4 ≤ (4 : Byte).toNat ∧ (3 : Byte).toNat = (3 : Fin 4).val ∧ 7 ≤ (7 : Byte).toNat
      ∧ (6 : Byte).toNat = (ProfileSection.gum 3).code ∧ (live.profiles.slot 3).content = none
      ∧ (live.profiles.slot 0).content = some profile ∧ (live.profiles.slot 0).signature = some (crc16 profile.image) := by
  refine ⟨by simp [readCommands], by unfold State.CanEnd; decide, by unfold State.CanEnd; decide, by decide, ?_, ?_, ?_, ?_, ?_, ?_,
    by decide, by decide, by decide, by decide, by decide, by decide, by decide, by decide, rfl, rfl, rfl⟩ <;>
    (unfold State.CanEnd; decide)

/-- R21, R158, R186: numbers out of range, and a profile section that is not there (R206). -/
theorem test_reads_out_of_range :
    answer (.configRead .port1 7 [13]) live = some ⟨0x19, 7, .refused, .invalid, [0, 0, 1]⟩
      ∧ answer (.slotRead .port1 7 [4, 0]) live = some ⟨0x25, 7, .refused, .invalid, [0, 0, 1]⟩
      ∧ answer (.slotRead .port1 7 [3, 7]) live = some ⟨0x25, 7, .refused, .invalid, [0, 0, 2]⟩
      ∧ answer (.slotRead .port1 7 [0, 4]) live = some ⟨0x25, 7, .ok, .none, [2, 4, 0]⟩ := by decide

/-- A held serial, one newer than the high-water cycle by 1 and by 2^31 − 1, the next beyond, and an empty queue. -/
theorem witness_TrackReadAndIdentifyAnswer :
    live.CanEnd .port1 (commandFrame 0x30 7 [0, 0, 0, 57]) ∧ live.track.find 57 = some (blank 57) ∧ off.track.records = []
      ∧ live.track.find 58 = none ∧ live.track.records ≠ [] ∧ live.track.highWater = some 57
      ∧ ((58 : Serial) - 57).toNat = 1 ∧ ((2147483704 : Serial) - 57).toNat = 2 ^ 31 - 1
      ∧ ((2147483705 : Serial) - 57).toNat = 2 ^ 31 ∧ live.CanEnd .port1 (commandFrame 0x01 7 []) := by
  unfold State.CanEnd; decide

/-- R204: the 34 bytes of a record, written out: serial 57, slot 1, ABSENT, SPLICE, PRINT error −2, camera done, one late verdict. -/
theorem test_blank_record_layout :
    let b : Blank :=
      { Blank.created 57 1 true with
        presence := .absent, printError := some (-2), cameraDone := true, verdicts := [⟨2, .reject, 42, true⟩] }
    layOut b.items
      = [0, 0, 0, 57, 1, 2, 0, 0x40, 1, 0xFF, 0xFE, 0, 0, 0, 1, 1, 2, 1, 42, 1, 0, 0, 0, 0, 0, 0, 0, 0, 0, 0, 0, 0, 0, 0] := by
  decide

def noticed : State := after (.stop .port1 3 []) subscribed

/-- Port 1 subscribed to HALT, with `n` notices queued and `lost` lost. -/
def listening (n lost : Nat) : Port :=
  { Port.reset with
    subscription := (subscribed.port .port1).subscription, notices := List.replicate n (.gap 1), lost := lost, attention := true }

/-- R196: a notice at 31 and 32 records with nothing lost, and at 30 and 31 records with 65,535 lost. -/
theorem test_notice_queue_bounds :
    let halt : Notice := .halt CauseSet.empty CauseSet.empty CauseSet.empty .off false
    ((listening 31 0).queueNotice halt).notices.length = 32 ∧ ((listening 32 0).queueNotice halt).lost = 1
      ∧ ((listening 30 65535).queueNotice halt).notices.drop 30 = [.gap 65535, halt] ∧ ((listening 30 65535).queueNotice halt).lost = 0
      ∧ ((listening 31 65535).queueNotice halt).notices.length = 31 ∧ ((listening 31 65535).queueNotice halt).lost = 65535 := by
  decide

/-- An empty queue and one with a notice; n = 0, 8 and 9; a kind that is subscribed and one that is not, at each bound of the queue. -/
theorem witness_NoticesAreSubscribedAndRead :
    live.CanEnd .port1 (commandFrame 0x02 7 [0xFF, 0xFF]) ∧ noticed.CanEnd .port1 (commandFrame 0x03 7 [9])
      ∧ (noticed.port .port1).notices ≠ [] ∧ (live.port .port1).notices = [] ∧ Nat.min (u8At [9] 0) 8 = 8
      ∧ Nat.min (u8At [8] 0) 8 = 8 ∧ Nat.min (u8At [0] 0) 8 = 0
      ∧ (listening 0 0).subscribes (.halt CauseSet.empty CauseSet.empty CauseSet.empty .off false) = true
      ∧ (listening 0 0).subscribes (.trackFlushed 1 2) = false ∧ (listening 0 0).subscribes (.gap 1) = false
      ∧ (listening 31 0).notices.length < 32 ∧ 32 ≤ (listening 32 0).notices.length ∧ 1 ≤ (listening 30 1).lost
      ∧ (listening 30 1).notices.length ≤ 30 ∧ 31 ≤ (listening 31 1).notices.length := by
  unfold State.CanEnd; decide

/-- The staging area of `off` held by `p`. -/
def staged (p : PortId) (failed : Bool) (h : Option Header) (x : Option PrintSection) : State :=
  off.setStaging { Staging.free with holder := some p, failed := failed, header := h, print := x }

theorem witness_StagingAreaHasOneHolder :
    off.CanEnd .port1 (commandFrame 0x20 7 []) ∧ off.staging.holder = none ∧ (staged .port1 false none none).staging.holder = some .port1
      ∧ PortId.port2 ≠ .port1 ∧ (staged .port2 false none none).staging.holder = some .port2
      ∧ off.CanEnd .port1 (commandFrame 0x23 7 []) := by
  unfold State.CanEnd; decide

def header13 : List Byte := headerBytes profile.header

/-- Section codes 6 and 7; W = P div 4 with e = W, and e = W − 1; a HEADER, a PATCH and a GUM section in range; another length. -/
theorem witness_StageWriteChecksItsSection :
    (staged .port1 false none none).CanEnd .port1 (commandFrame 0x21 7 [1, 0x03, 0xE8, 0x03, 0xE8, 0, 20])
      ∧ ([0x03, 0xE8, 0x03, 0xE8, 0, 20] : List Byte).length = 6 ∧ 7 ≤ (7 : Byte).toNat ∧ ¬(7 ≤ (6 : Byte).toNat)
      ∧ u16At [0x03, 0xE8, 0x03, 0xE8, 0, 20] 0 = 1000 ∧ 1000 ≤ config.shaft.pitch / 4 ∧ ¬(1000 ≤ u16At [0x03, 0xE7] 0)
      ∧ (staged .port1 true none none).staging.failed = true ∧ off.staging.holder ≠ some .port1
      ∧ (staged .port1 false none none).CanEnd .port1 (commandFrame 0x21 7 (0 :: header13)) ∧ header13.length = 13
      ∧ headerOf header13 = some profile.header
      ∧ (patchBytes ⟨3999, 2600, 200, 20⟩).length = 8 ∧ (patchOf (patchBytes ⟨3999, 2600, 200, 20⟩)).fits 4000 = true
      ∧ (patchOf (patchBytes ⟨4000, 2600, 200, 20⟩)).fits 4000 = false
      ∧ (gumBytes [⟨0, 1⟩, ⟨2, 3999⟩]).length = 1 + 4 * 2 ∧ gumFits 4000 [⟨0, 1⟩, ⟨2, 3999⟩] = true
      ∧ gumFits 4000 [⟨0, 2⟩, ⟨2, 3999⟩] = false ∧ (6 : Byte).toNat = 3 + (3 : Fin 4).val
      ∧ (staged .port1 false none none).CanEnd .port1 (commandFrame 0x21 7 [1, 0]) ∧ ([0] : List Byte).length ≠ 6 := by
  unfold State.CanEnd; decide

/-- STAGE_WRITE over the four kinds of section: HEADER and GUM0 stored, PATCH with its knife at P refused, a PRINT of another length. -/
theorem test_stage_write_sections :
    let s := staged .port1 false none none
    (after (.stageWrite .port1 7 (0 :: header13)) s).staging.header = some profile.header
      ∧ (after (.stageWrite .port1 7 (3 :: gumBytes [⟨0, 1⟩, ⟨2, 3999⟩])) s).staging.gum[0] = some [⟨0, 1⟩, ⟨2, 3999⟩]
      ∧ answer (.stageWrite .port1 7 (2 :: patchBytes ⟨4000, 2600, 200, 20⟩)) s = some ⟨0x21, 7, .refused, .invalid, [2, 2, 0]⟩
      ∧ answer (.stageWrite .port1 7 [1, 0]) s = some ⟨0x21, 7, .refused, .invalid, [1, 0, 0]⟩ := by decide

/-- Slot numbers 3 and 4; the missing sections, the slot in use and the full area. -/
theorem witness_StageCommitFillsASlot :
    (staged .port1 false (some profile.header) (some profile.print)).CanEnd .port1 (commandFrame 0x22 7 [3])
      ∧ (3 : Byte).toNat = (3 : Fin 4).val ∧ 4 ≤ (4 : Byte).toNat
      ∧ ((staged .port1 false none none).profiles.slot 3).state = .empty ∧ (live.profiles.slot 0).state = .active
      ∧ (staged .port1 false none none).staging.header = none
      ∧ (staged .port1 false (some profile.header) none).staging.header.isSome = true
      ∧ (staged .port1 false (some profile.header) none).staging.print = none := by
  unfold State.CanEnd; decide

/-- `live` with the pitch `n`. -/
def pitched (n : Nat) : State := { live with config := { config with shaft := ⟨n, .normal, 100, 50⟩ } }

/-- The slots' content fits P = 4,000. -/
theorem profile_fits (part : ProfileSection) : profile.Fits 4000 part := by
  rcases part with _ | _ | _ | v
  · trivial
  · unfold Profile.Fits WindowFits; decide
  · intro x hx
    obtain rfl : (⟨1800, 2600, 200, 20⟩ : PatchSection) = x := Option.some.inj hx
    unfold WindowFits
    decide
  · intro xs hxs
    have hv : v = 0 ∧ xs = [⟨1100, 1700⟩] := by
      rcases v with ⟨_ | _ | _ | _ | _, hv⟩ <;> simp [profile] at hxs
      · exact ⟨rfl, hxs.symm⟩
      · omega
    rw [hv.2]
    unfold SegmentsFit
    decide

theorem live_slot_fits : live.SlotFits 1 := by
  intro c part hc
  obtain rfl : profile = c := Option.some.inj hc
  exact profile_fits part

/-- With P = 2,000 the PRINT section, e = 2,000, is the first that does not fit. -/
theorem pitched_print_first : (pitched 2000).FirstUnfit 1 .print := by
  refine ⟨profile, rfl, ?_, ?_⟩
  · unfold Profile.Fits WindowFits; decide
  · intro x hx
    rcases x with _ | _ | _ | v
    · trivial
    · exact absurd hx (by decide)
    · exact absurd hx (by decide)
    · exact absurd hx (by simp [ProfileSection.code])

/-- Slot numbers 3 and 4; trigger codes 2 and 3; SERIAL newer by 1 and by 2^31 − 1, and the newest serial itself. -/
theorem witness_SlotsAreErasedArmedAndCancelled :
    live.CanEnd .port1 (commandFrame 0x24 7 [1]) ∧ (live.profiles.slot 1).state = .ready ∧ (live.profiles.slot 0).state = .active
      ∧ live.CanEnd .port1 (commandFrame 0x28 7 [1, 1, 0, 0, 0, 58]) ∧ live.run.runState ≠ .off ∧ off.run.runState = .off
      ∧ (∀ j : Fin 4, (live.profiles.slot j).state ≠ .staged ∧ (live.profiles.slot j).state ≠ .retiring)
      ∧ ((armed .next).profiles.slot 1).state = .staged ∧ (∀ j : Fin 4, ((armed .next).profiles.slot j).state = .staged → j = 1)
      ∧ ((58 : Serial) - 57).toNat = 1 ∧ ((57 : Serial) - 57).toNat = 0 ∧ live.SlotFits 1 ∧ (pitched 2000).FirstUnfit 1 .print
      ∧ 4 ≤ (4 : Byte).toNat ∧ live.CanEnd .port1 (commandFrame 0x24 7 [4])
      ∧ live.CanEnd .port1 (commandFrame 0x28 7 [4, 0, 0, 0, 0, 0])
      ∧ 3 ≤ (3 : Byte).toNat ∧ (2 : Byte).toNat < 3 ∧ live.CanEnd .port1 (commandFrame 0x29 7 []) := by
  refine ⟨?_, ?_, ?_, ?_, ?_, ?_, ?_, ?_, ?_, ?_, ?_, live_slot_fits, pitched_print_first, ?_, ?_, ?_, ?_, ?_, ?_⟩ <;>
    first | decide | (unfold State.CanEnd; decide)

/-- R21: slot number 4. -/
theorem test_slot_numbers_above_3 :
    answer (.slotErase .port1 7 [4]) live = some ⟨0x24, 7, .refused, .invalid, [0, 0, 1]⟩
      ∧ answer (.changeoverArm .port1 7 [4, 0, 0, 0, 0, 0]) live = some ⟨0x28, 7, .refused, .invalid, [0, 0, 1]⟩ := by decide

/-- OFF as `off`, with the configuration `c`. -/
def offWith (c : MachineConfig) : State := { off with config := c }

/-- Each case of START in its order: slots 3 and 4; a run that has begun; section 12 unwritten; check 1 and check 12 failing; a slot that is
EMPTY; one that does not fit; and one that is taken. -/
theorem witness_StartBeginsARun :
    off.SlotsLawful ∧ off.CanEnd .port1 (commandFrame 0x11 7 [0]) ∧ off.run.runState = .off ∧ live.run.runState ≠ .off
      ∧ 4 ≤ (4 : Byte).toNat ∧ (3 : Byte).toNat = (3 : Fin 4).val ∧ off.config.unwritten = none
      ∧ { config with written := config.written.set 12 false }.unwritten = some 12
      ∧ { config with stations := { config.stations with patch := 6 } }.crossChecks[0]? = some false
      ∧ (∀ j < 11, { config with angles := { config.angles with kick := 4000 } }.crossChecks[j]? = some true)
      ∧ { config with angles := { config.angles with kick := 4000 } }.crossChecks[11]? = some false
      ∧ (∀ c ∈ off.config.crossChecks, c = true) ∧ (off.profiles.slot 2).state ≠ .ready ∧ (off.profiles.slot 1).state = .ready
      ∧ off.SlotFits 1 ∧ (offWith { config with shaft := ⟨2000, .normal, 100, 50⟩ }).FirstUnfit 1 .print := by
  refine ⟨⟨?_, ?_, ?_, ?_⟩, by unfold State.CanEnd; decide, by decide, by decide, by decide, by decide, by decide, by decide, by decide,
    by decide, by decide, by decide, by decide, by decide, live_slot_fits, pitched_print_first⟩
  · unfold Profiles.OneEach Profiles.AtMostOne; decide
  · unfold Profiles.Signed; decide +kernel
  · unfold Profiles.ArmHoldsStaged; decide
  · unfold State.ActiveOutsideOff; decide

/-- R163: slot 4, a run that has begun, an unwritten section, check 12, and an EMPTY slot. -/
theorem test_start_refusals :
    answer (.start .port1 7 [4]) live = some ⟨0x11, 7, .refused, .invalid, [0, 0, 1]⟩
      ∧ answer (.start .port1 7 [0]) live = some ⟨0x11, 7, .refused, .state, []⟩
      ∧ answer (.start .port1 7 [0]) (offWith { config with written := config.written.set 12 false })
        = some ⟨0x11, 7, .refused, .invalid, [3, 12, 0]⟩
      ∧ answer (.start .port1 7 [0]) (offWith { config with angles := { config.angles with kick := 4000 } })
        = some ⟨0x11, 7, .refused, .invalid, [5, 12, 0]⟩
      ∧ answer (.start .port1 7 [2]) off = some ⟨0x11, 7, .refused, .inUse, []⟩ := by decide

theorem witness_HaltCausesAreSetAndCleared :
    live.PermitFollows ∧ live.CanEnd .port1 (commandFrame 0x12 7 []) ∧ live.CanEnd .port1 (commandFrame 0x13 7 [0x1F])
      ∧ live.shaft.motion = .moving ∧ off.PermitFollows ∧ off.shaft.motion = .atRest
      ∧ off.CanEnd .port1 (commandFrame 0x13 7 [0x1F]) := by
  unfold State.CanEnd State.PermitFollows; decide

theorem witness_RunResetReturnsThePartToOff :
    live.CanEnd .port1 (commandFrame 0x14 7 []) ∧ live.shaft.motion = .moving ∧ off.shaft.motion = .atRest
      ∧ off.CanEnd .port1 (commandFrame 0x14 7 []) ∧ (queued 7 false).batch.current.body.good = 1 ∧ live.batch.current.body.good = 0 := by
  unfold State.CanEnd; decide

/-- A SHAFT section with P = 4,000 in OFF, and a part that is not in OFF; each bound of its fields and the value past it. -/
theorem witness_ConfigurationReadsBackAsWritten :
    ([0x0F, 0xA0, 0, 0, 100, 0, 50] : List Byte).length ≤ 60
      ∧ off.CanEnd .port1 (commandFrame 0x18 7 [0, 0x0F, 0xA0, 0, 0, 100, 0, 50])
      ∧ live.CanEnd .port1 (commandFrame 0x18 7 [0, 0x0F, 0xA0, 0, 0, 100, 0, 50]) ∧ off.run.runState = .off
      ∧ live.run.runState ≠ .off ∧ ([0x0F, 0xA0, 0, 0, 100, 0, 50] : List Byte).length = contentLength .shaft
      ∧ (∀ c ∈ fieldRanges 4000 [0x0F, 0xA0, 0, 0, 100, 0, 50] .shaft, c = true)
      ∧ 13 ≤ (13 : Byte).toNat ∧ (12 : Byte).toNat = (ConfigSection.sat 7).code ∧ ([0x0F] : List Byte).length ≠ contentLength .shaft
      ∧ (∀ j < 2, (fieldRanges 4000 [0x0F, 0xA0, 0, 0, 0, 0, 50] .shaft)[j]? = some true)
      ∧ (fieldRanges 4000 [0x0F, 0xA0, 0, 0, 0, 0, 50] .shaft)[2]? = some false
      ∧ fieldRanges 4000 [0x3E, 0x80, 1, 0, 1, 0x03, 0xE8] .shaft = [true, true, true, true]
      ∧ fieldRanges 4000 [0x3E, 0x81, 2, 0, 0, 0x03, 0xE9] .shaft = [false, false, false, false]
      ∧ fieldRanges 4000 [0x0F, 0x9F, 0x0F, 0xA0, 0, 0, 0, 0, 0, 0] .angles = [true, false, true, true, true] := by
  unfold State.CanEnd; decide

/-- R184: a creep threshold of 0 is field 3 of SHAFT; an unknown section, and another length. -/
theorem test_config_write_refusals :
    answer (.configWrite .port1 7 [0, 0x0F, 0xA0, 0, 0, 0, 0, 50]) off = some ⟨0x18, 7, .refused, .invalid, [4, 0, 3]⟩
      ∧ answer (.configWrite .port1 7 [13]) off = some ⟨0x18, 7, .refused, .invalid, [0, 0, 1]⟩
      ∧ answer (.configWrite .port1 7 [0, 0x0F]) off = some ⟨0x18, 7, .refused, .invalid, [1, 0, 0]⟩ := by decide

/-- Sources 3 and 4, results 1 and 2; a record that is absent, undecided, decided, and judged already. -/
theorem witness_VerdictsAreTakenByTheirCase :
    ([0, 0, 0, 51, 0, 1, 42] : List Byte).length = 7 ∧ pictured.CanEnd .port1 (commandFrame 0x40 7 [0, 0, 0, 51, 0, 1, 42])
      ∧ 4 ≤ (4 : Byte).toNat ∧ (3 : Byte).toNat = (3 : Fin 4).val ∧ 2 ≤ (2 : Byte).toNat ∧ (1 : Byte).toNat < 2
      ∧ off.track.records = [] ∧ pictured.track.find 46 = none ∧ pictured.track.records ≠ [] ∧ pictured.track.highWater = some 57
      ∧ pictured.track.find 51 = some { blank 51 with cameraDone := true }
      ∧ (∀ r ∈ pictured.track.records, r.serial = 51 → r = { blank 51 with cameraDone := true })
      ∧ pictured.profiles.contentOf 0 = some profile ∧ profile.header.expected.has 0 = true ∧ profile.header.expected.has 1 = false := by
  unfold State.CanEnd; decide

theorem witness_BatchCommandsAnswerFromTheQueue :
    batched.CanEnd .port1 (commandFrame 0x48 7 []) ∧ 1 ≤ batched.batch.current.body.good ∧ live.batch.current.body.good = 0
      ∧ batched.CanEnd .port1 (commandFrame 0x49 7 []) ∧ live.batch.queue = [] ∧ batched.batch.queue.length = 1
      ∧ batched.CanEnd .port1 (commandFrame 0x4A 7 [0, 0, 0, 31]) ∧ u32At [0, 0, 0, 31] 0 = 31 ∧ u32At [0, 0, 0, 30] 0 ≠ 31 := by
  unfold State.CanEnd; decide

theorem witness_FramesDecodeToTheirCommands :
    encodeTransfer (.configWrite .port1 7 (List.replicate 61 0)) = some ⟨.port1, commandFrame 0x18 7 (List.replicate 61 0)⟩
      ∧ (Instr.configWrite .port1 7 (List.replicate 61 0)).wellFormed = true := by decide

/-- What the statements about every step ask of the state before it. -/
theorem witness_StepsKeepTheLaws :
    live.RunLawful ∧ noticed.NoticesInOrder ∧ batched.BatchesRun ∧ live.OutputsLawful ∧ live.TrackLawful ∧ live.RecordsLawful
      ∧ live.ValuesClamped ∧ step live = .next (passMicrosecond live) := by
  refine ⟨⟨?_, ?_⟩, ?_, ?_, ⟨?_, ?_, ?_⟩, ⟨?_, ?_, ?_⟩, ?_, ⟨?_, ?_⟩, rfl⟩
  · unfold State.PermitFollows; decide
  · unfold State.HomedInLive; decide
  · intro p; cases p <;> (unfold Port.NoticesInOrder; decide)
  · unfold State.BatchesRun; decide
  · unfold State.GumFollows; decide
  · unfold State.OutputsFollow; decide
  · unfold State.QuietInOff; decide
  · unfold State.RecordsRun; decide
  · unfold State.QueueFollows; decide
  · decide
  · unfold State.RecordsLawful Blank.CountedOnce Blank.HoldDiverts Blank.OneVerdictEach; decide
  · intro ch; cases ch <;> decide
  · decide

/-- The slots of a run with an armed changeover are lawful (StepsKeepSlotsLawful). -/
theorem witness_StepsKeepSlotsLawful : (armed .next).RunLawful ∧ (armed .next).SlotsLawful := by
  refine ⟨⟨by unfold State.PermitFollows; decide, by unfold State.HomedInLive; decide⟩, ?_, ?_, ?_, ?_⟩
  · unfold Profiles.OneEach Profiles.AtMostOne; decide
  · unfold Profiles.Signed; decide +kernel
  · unfold Profiles.ArmHoldsStaged; decide
  · unfold State.ActiveOutsideOff; decide

end Sys2Proof.Tests
end

section
/-! PROOFS. The staging area's commands (chapter 2): STAGE_OPEN and STAGE_DROP by holder (R22, R25), STAGE_COMMIT case by case (R24, R27). -/

namespace Sys2Proof.Machine

/-! ## The end of a transfer and the profile store -/

/-- The end of a transfer touches no block but the ports (R189, R191). -/
@[simp] theorem ended_profiles (s : State) (p : PortId) (frame : List Byte) : (s.ended p frame).profiles = s.profiles := by
  unfold State.ended endTransfer
  cases (s.port p).transferBytes frame with
  | some bytes => exact setPort_profiles ..
  | none =>
    dsimp only
    split
    · exact setPort_profiles ..
    · rfl

@[simp] theorem ended_staging (s : State) (p : PortId) (frame : List Byte) : (s.ended p frame).staging = s.staging :=
  congrArg Profiles.staging (ended_profiles s p frame)

/-! ## The answer of a command with a fixed payload length -/

/-- A command whose payload has its fixed length responds what its own rule answers to the part after the transfer (R191, R194). -/
theorem takeCommand_of_answer {s t : State} {p : PortId} {code tag : Byte} {payload : List Byte}
    (h : s.CanEnd p (commandFrame code tag payload)) (hl : payload.length ≤ 61) {body : State → Answer} {result : Result}
    {reason : Reason} {answer : List Byte}
    (ha : body (s.ended p (commandFrame code tag payload)) = ⟨t, result, reason, answer⟩) :
    takeCommand p code tag payload (withLength payload.length payload body) s = respond p ⟨code, tag, result, reason, answer⟩ t := by
  rw [takeCommand_of_canEnd h hl, withLength_of_length rfl, ha]

theorem exec_stageOpen_of_answer {s t : State} {p : PortId} {tag : Byte} (h : s.CanEnd p (commandFrame 0x20 tag []))
    {result : Result} {reason : Reason} {answer : List Byte}
    (ha : openStaging p (s.ended p (commandFrame 0x20 tag [])) = ⟨t, result, reason, answer⟩) :
    exec (.stageOpen p tag []) s = .next (respond p ⟨0x20, tag, result, reason, answer⟩ t) :=
  congrArg Host.Outcome.next (takeCommand_of_answer h (Nat.zero_le _) ha)

theorem exec_stageDrop_of_answer {s t : State} {p : PortId} {tag : Byte} (h : s.CanEnd p (commandFrame 0x23 tag []))
    {result : Result} {reason : Reason} {answer : List Byte}
    (ha : dropStaging p (s.ended p (commandFrame 0x23 tag [])) = ⟨t, result, reason, answer⟩) :
    exec (.stageDrop p tag []) s = .next (respond p ⟨0x23, tag, result, reason, answer⟩ t) :=
  congrArg Host.Outcome.next (takeCommand_of_answer h (Nat.zero_le _) ha)

theorem exec_stageCommit_of_answer {s t : State} {p : PortId} {tag n : Byte} (h : s.CanEnd p (commandFrame 0x22 tag [n]))
    {result : Result} {reason : Reason} {answer : List Byte}
    (ha : commitStaging p n.toNat (s.ended p (commandFrame 0x22 tag [n])) = ⟨t, result, reason, answer⟩) :
    exec (.stageCommit p tag [n]) s = .next (respond p ⟨0x22, tag, result, reason, answer⟩ t) :=
  congrArg Host.Outcome.next (takeCommand_of_answer h (by decide : 1 ≤ 61) ha)

/-! ## STAGE_OPEN and STAGE_DROP (R22, R25) -/

section Holder

variable {s : State} {p : PortId}

theorem openStaging_of_free_or_own (h : s.staging.holder = none ∨ s.staging.holder = some p) :
    openStaging p s = answerOk [] (s.setStaging { Staging.free with holder := some p }) := if_pos h

theorem openStaging_of_other {q : PortId} (hq : q ≠ p) (h : s.staging.holder = some q) : openStaging p s = refuse .held s := by
  simp [openStaging, h, hq]

theorem dropStaging_of_holder (h : s.staging.holder = some p) : dropStaging p s = answerOk [] (s.setStaging Staging.free) :=
  if_pos h

theorem dropStaging_of_not_holder (h : s.staging.holder ≠ some p) : dropStaging p s = refuse .held s := if_neg h

end Holder

/-- Settles O42, from the answers of `openStaging` and `dropStaging` by the area's holder. -/
theorem stagingAreaHasOneHolder : Obligations.StagingAreaHasOneHolder := by
  intro p tag s
  refine ⟨fun hopen => ⟨fun hfree => ?_, fun q hq hother => ?_⟩, fun hdrop => ⟨fun hown => ?_, fun hnot => ?_⟩⟩
  · exact exec_stageOpen_of_answer hopen (openStaging_of_free_or_own (by rwa [ended_staging]))
  · exact exec_stageOpen_of_answer hopen (openStaging_of_other hq (by rwa [ended_staging]))
  · exact exec_stageDrop_of_answer hdrop (dropStaging_of_holder (by rwa [ended_staging]))
  · exact exec_stageDrop_of_answer hdrop (dropStaging_of_not_holder (by rwa [ended_staging]))

/-! ## STAGE_COMMIT (R24, R27) -/

theorem inUse_iff (x : SlotState) : x.inUse = true ↔ x = .active ∨ x = .staged ∨ x = .retiring := by
  cases x <;> decide

theorem not_inUse_iff (x : SlotState) : x.inUse = false ↔ x = .empty ∨ x = .ready := by
  cases x <;> decide

theorem slotOf_of_ge {n : Nat} (h : 4 ≤ n) : slotOf n = none := dif_neg (Nat.not_lt.mpr h)

section Commit

variable {s : State} {p : PortId} {i : Fin 4}

theorem commitStaging_of_not_holder {n : Nat} (h : s.staging.holder ≠ some p) : commitStaging p n s = refuse .held s := if_pos h

theorem commitStaging_of_failed {n : Nat} (h : s.staging.holder = some p) (hf : s.staging.failed = true) :
    commitStaging p n s = refuse .stagingFailed s := by
  simp [commitStaging, h, hf]

theorem commitStaging_of_no_slot {n : Nat} (h : s.staging.holder = some p) (hf : s.staging.failed = false) (hn : 4 ≤ n) :
    commitStaging p n s = invalid .none 0 1 s := by
  simp [commitStaging, h, hf, slotOf_of_ge hn]

theorem commitStaging_of_slot (h : s.staging.holder = some p) (hf : s.staging.failed = false) :
    commitStaging p i.val s = commitTo i s := by
  simp [commitStaging, h, hf, slotOf_val]

theorem commitTo_of_inUse (h : (s.profiles.slot i).state.inUse = true) : commitTo i s = refuse .inUse s := if_pos h

theorem commitTo_of_no_header (h : (s.profiles.slot i).state.inUse = false) (hh : s.staging.header = none) :
    commitTo i s = invalid .profileSection ProfileSection.header.code 0 s := by
  simp [commitTo, h, hh]

theorem commitTo_of_no_print (h : (s.profiles.slot i).state.inUse = false) (hh : s.staging.header.isSome = true)
    (hp : s.staging.print = none) : commitTo i s = invalid .profileSection ProfileSection.print.code 0 s := by
  obtain ⟨header, hheader⟩ := Option.isSome_iff_exists.mp hh
  simp [commitTo, h, hheader, hp]

theorem commitTo_of_sections {header : Header} {print : PrintSection} (h : (s.profiles.slot i).state.inUse = false)
    (hh : s.staging.header = some header) (hp : s.staging.print = some print) :
    commitTo i s = commitInto i ⟨header, print, s.staging.patch, s.staging.gum⟩ s := by
  simp [commitTo, h, hh, hp]

/-- The taken commit in the statement's words: the signature is that of the canonical image laid out item by item (R206). -/
theorem commitInto_eq (content : Profile) :
    commitInto i content s
      = ⟨{ s with
            profiles :=
              { s.profiles.setSlot i ⟨.ready, some content, some (crc16 (layOut content.imageItems))⟩ with
                staging := Staging.free } },
          .ok, .none, byteOf i.val ++ bytes2 (crc16 (layOut content.imageItems)).toNat⟩ := by
  rw [← image_eq]
  rfl

end Commit

/-- Settles O44: the cases of `commitStaging`, then those of `commitTo`, in R24's order. -/
theorem stageCommitFillsASlot : Obligations.StageCommitFillsASlot := by
  intro p tag n s hend ended reply
  have hstaging : ended.staging = s.staging := ended_staging ..
  have hprofiles : ended.profiles = s.profiles := ended_profiles ..
  rw [← hstaging, ← hprofiles]
  refine ⟨fun hnot => ?_, fun hown hfailed => ?_, fun hown hclean => ⟨fun hn => ?_, fun i hi => ?_⟩⟩
  · exact exec_stageCommit_of_answer hend (commitStaging_of_not_holder hnot)
  · exact exec_stageCommit_of_answer hend (commitStaging_of_failed hown hfailed)
  · exact exec_stageCommit_of_answer hend (commitStaging_of_no_slot hown hclean hn)
  have hslot : commitStaging p n.toNat ended = commitTo i ended := hi ▸ commitStaging_of_slot hown hclean
  refine ⟨fun huse => ?_, fun hfree => ?_⟩
  · exact exec_stageCommit_of_answer hend (hslot.trans (commitTo_of_inUse ((inUse_iff _).mpr huse)))
  have hfree := (not_inUse_iff _).mpr hfree
  refine ⟨fun hheader => ?_, fun hheader hprint => ?_, fun header print hheader hprint => ?_⟩
  · exact exec_stageCommit_of_answer hend (hslot.trans (commitTo_of_no_header hfree hheader))
  · exact exec_stageCommit_of_answer hend (hslot.trans (commitTo_of_no_print hfree hheader hprint))
  · have hbyte : byteOf i.val = [n] := by rw [← hi]; exact byteOf_u8At [n] 0
    have htaken := hslot.trans ((commitTo_of_sections hfree hheader hprint).trans (commitInto_eq _))
    rw [hbyte] at htaken
    exact exec_stageCommit_of_answer hend htaken

end Sys2Proof.Machine
end

section
/-! PROOFS. The tracking queue (chapter 3) and what clears it: the lookup of a serial, TRACK_READ and IDENTIFY (R50, R53, R200),
hardware reset block by block (R176), and the SPLICE edge by run state (R48). -/

namespace Sys2Proof.Machine

/-! ## Looking a serial up (R42, R50) -/

theorem serialNewer_iff (a b : Serial) : serialNewer a b = true ↔ 1 ≤ (a - b).toNat ∧ (a - b).toNat ≤ 2 ^ 31 - 1 := by
  simp only [serialNewer, Bool.and_eq_true, decide_eq_true_eq]
  omega

section Lookup

variable {t : Track} {n h : Serial}

theorem lookup_of_find {b : Blank} (hb : t.find n = some b) : t.lookup n = .found b := by
  simp [Track.lookup, hb]

theorem find_of_no_records (he : t.records = []) : t.find n = none := by
  simp [Track.find, he]

theorem lookup_of_no_records (he : t.records = []) : t.lookup n = .unknownSerial := by
  simp [Track.lookup, find_of_no_records he, Track.beyondNewest, he]

theorem beyondNewest_of_highWater (hr : t.records ≠ []) (hh : t.highWater = some h) : t.beyondNewest n = serialNewer n h := by
  simp [Track.beyondNewest, hr, hh]

theorem lookup_of_newer (hn : t.find n = none) (hr : t.records ≠ []) (hh : t.highWater = some h) (hnew : serialNewer n h = true) :
    t.lookup n = .unknownSerial := by
  simp [Track.lookup, hn, beyondNewest_of_highWater hr hh, hnew]

theorem lookup_of_not_newer (hn : t.find n = none) (hr : t.records ≠ []) (hh : t.highWater = some h)
    (hold : ¬serialNewer n h = true) : t.lookup n = .gone := by
  simp [Track.lookup, hn, beyondNewest_of_highWater hr hh, hold]

end Lookup

/-! ## TRACK_READ and IDENTIFY (R53, R200) -/

/-- The end of a transfer leaves the tracking queue alone (R191). -/
@[simp] theorem ended_track (s : State) (p : PortId) (frame : List Byte) : (s.ended p frame).track = s.track := by
  simp

section ReadBlank

variable {s : State} {n : Serial}

theorem readBlank_of_found {b : Blank} (h : s.track.lookup n = .found b) : readBlank n s = answerOk (layOut b.items) s := by
  simp [readBlank, h, blankBytes_eq]

theorem readBlank_of_unknown (h : s.track.lookup n = .unknownSerial) : readBlank n s = refuse .unknownSerial s := by
  simp [readBlank, h]

theorem readBlank_of_gone (h : s.track.lookup n = .gone) : readBlank n s = refuse .gone s := by
  simp [readBlank, h]

end ReadBlank

theorem exec_trackRead_of_answer {s t : State} {p : PortId} {tag : Byte} {payload : List Byte} (hl : payload.length = 4)
    (h : s.CanEnd p (commandFrame 0x30 tag payload)) {result : Result} {reason : Reason} {answer : List Byte}
    (ha : readBlank (u32At payload 0) (s.ended p (commandFrame 0x30 tag payload)) = ⟨t, result, reason, answer⟩) :
    exec (.trackRead p tag payload) s = .next (respond p ⟨0x30, tag, result, reason, answer⟩ t) := by
  have htaken := takeCommand_of_answer h (by omega) ha
  rw [hl] at htaken
  exact congrArg Host.Outcome.next htaken

theorem exec_identify_of_answer {s t : State} {p : PortId} {tag : Byte} (h : s.CanEnd p (commandFrame 0x01 tag []))
    {result : Result} {reason : Reason} {answer : List Byte}
    (ha : answerOk (identifyBytes p) (s.ended p (commandFrame 0x01 tag [])) = ⟨t, result, reason, answer⟩) :
    exec (.identify p tag []) s = .next (respond p ⟨0x01, tag, result, reason, answer⟩ t) :=
  congrArg Host.Outcome.next (takeCommand_of_answer h (Nat.zero_le _) ha)

/-- Settles O40: TRACK_READ by where the lookup finds the serial, IDENTIFY port by port. -/
theorem trackReadAndIdentifyAnswer : Obligations.TrackReadAndIdentifyAnswer := by
  intro p tag s
  refine ⟨fun payload hlength hend => ?_, fun hend => ?_⟩
  · have htrack : (s.ended p (commandFrame 0x30 tag payload)).track = s.track := ended_track ..
    rw [← htrack]
    refine ⟨fun b hheld => ?_, fun hempty => ?_, fun h habsent hrecords hhigh => ?_⟩
    · exact exec_trackRead_of_answer hlength hend (readBlank_of_found (lookup_of_find hheld))
    · exact exec_trackRead_of_answer hlength hend (readBlank_of_unknown (lookup_of_no_records hempty))
    · split
      case isTrue hbeyond =>
        have hnewer := (serialNewer_iff _ _).mpr hbeyond
        exact exec_trackRead_of_answer hlength hend (readBlank_of_unknown (lookup_of_newer habsent hrecords hhigh hnewer))
      case isFalse hbehind =>
        have hold := mt (serialNewer_iff _ _).mp hbehind
        exact exec_trackRead_of_answer hlength hend (readBlank_of_gone (lookup_of_not_newer habsent hrecords hhigh hold))
  · cases p <;> exact exec_identify_of_answer hend rfl

/-! ## The reset state, read through its accessors (R37, R86, R105, R161, R177) -/

@[simp] theorem reset_profile_slot (i : Fin 4) : State.reset.profiles.slot i = ⟨.empty, none, none⟩ :=
  Vector.getElem_replicate _

@[simp] theorem reset_slot (pt : TimedPoint) : State.reset.slot pt = ActionSlot.reset :=
  Vector.getElem_replicate _

@[simp] theorem reset_segments (v : Fin 4) : State.reset.sched.segments[v.val] = [] :=
  Vector.getElem_replicate _

@[simp] theorem reset_pulse (ch : PulseChannel) : State.reset.sched.pulse ch = none := by
  cases ch <;> rfl

@[simp] theorem reset_channel (ch : RegChannel) : State.reset.channel ch = Channel.reset := by
  cases ch <;> rfl

@[simp] theorem reset_entry (n : Fin 8) : State.reset.entry n = SampleEntry.reset :=
  Vector.getElem_replicate _

@[simp] theorem reset_satConfig (n : Fin 8) : State.reset.satConfig n = ⟨0, 0, 1, .below, 0, 1, .notice, false⟩ :=
  Vector.getElem_replicate _

/-! ## Hardware reset (R176, R201) -/

theorem noticeKinds_empty_mask : NoticeKinds.empty.mask = 0 := by decide

/-- A port keeps of a hardware reset only that a transfer stands open, and ignores that one (R201). -/
theorem hardwareReset_clears_port (x : Port) :
    x.hardwareReset.notices = [] ∧ x.hardwareReset.lost = 0 ∧ x.hardwareReset.attention = false ∧ x.hardwareReset.pending = none
      ∧ x.hardwareReset.subscription.mask = 0
      ∧ x.hardwareReset.transfer = if x.transfer = .idle then .idle else .ignored := by
  unfold Port.hardwareReset
  cases x.transfer <;> simp [Port.reset, noticeKinds_empty_mask]

/-- Settles O2: every block is that of `State.reset`, the port by whether a transfer stood open. -/
theorem hardwareResetClearsThePart : Obligations.HardwareResetClearsThePart := by
  intro a b s
  refine ⟨_, rfl, rfl, reset_profile_slot, rfl, rfl, rfl, rfl, rfl, rfl, fun pt => ?_, reset_segments, reset_pulse, rfl, rfl,
    reset_channel, rfl, rfl, rfl, rfl, rfl, rfl, rfl, reset_entry, rfl, rfl, rfl, rfl, rfl, rfl, reset_satConfig, rfl, fun p => ?_⟩
  · have hslot := reset_slot pt
    exact ⟨congrArg ActionSlot.phase hslot, congrArg ActionSlot.clampNoted hslot⟩
  · cases p <;> exact hardwareReset_clears_port _

/-! ## The SPLICE edge (R31, R48) -/

section Splice

variable {s : State} {h : Serial} {b : Blank}

theorem spliceEdge_of_live (hlive : s.run.runState = .live) : spliceEdge s = spliceNewest s := by
  simp [spliceEdge, hlive]

theorem spliceNewest_of_marked (hh : s.track.highWater = some h) (hb : s.track.find h = some b) (hm : b.defects.splice = true) :
    spliceNewest s = s := by
  simp [spliceNewest, hh, hb, hm]

theorem spliceNewest_of_unmarked (hh : s.track.highWater = some h) (hb : s.track.find h = some b) (hm : b.defects.splice = false) :
    spliceNewest s = markSpliceSeen (addDefect h .splice s) := by
  simp [spliceNewest, hh, hb, hm]

end Splice

/-- An arm that has seen a splice: a SPLICE trigger becomes met, another stays (R31). -/
def armSeen : Option ChangeoverArm → Option ChangeoverArm
  | some ⟨slot, .splice _⟩ => some ⟨slot, .splice true⟩
  | other => other

theorem markSpliceSeen_eq (s : State) :
    markSpliceSeen s = { s with profiles := { s.profiles with arm := armSeen s.profiles.arm } } := by
  unfold markSpliceSeen
  split
  next slot harm => rw [harm]; rfl
  next hother =>
    have hsame : armSeen s.profiles.arm = s.profiles.arm := by
      unfold armSeen
      split
      next slot seen harm =>
        cases seen with
        | false => exact absurd harm (hother slot)
        | true => exact harm.symm
      next => rfl
    rw [hsame]

/-- Settles O14, by the run state, and in LIVE by whether the newest blank is marked. -/
theorem spliceEdgeMarksTheNewestBlank : Obligations.SpliceEdgeMarksTheNewestBlank := by
  intro s
  refine ⟨fun hoff => ?_, fun hhoming => ?_, fun h b hlive hhigh hheld => ⟨fun hmarked => ?_, fun hunmarked => ?_⟩⟩
  · exact congrArg Host.Outcome.next (by simp [spliceEdge, hoff])
  · exact congrArg Host.Outcome.next (by simp [spliceEdge, hhoming])
  · exact congrArg Host.Outcome.next ((spliceEdge_of_live hlive).trans (spliceNewest_of_marked hhigh hheld hmarked))
  · have hedge := (spliceEdge_of_live hlive).trans
      ((spliceNewest_of_unmarked hhigh hheld hunmarked).trans (markSpliceSeen_eq _))
    exact congrArg Host.Outcome.next hedge

end Sys2Proof.Machine
end

section
/-! PROOFS. The action scheduler's firings at a due point (chapter 4): what the ON of a valve segment (R80) and the camera (R75) do to
the state as they find it. -/

namespace Sys2Proof.Machine

theorem live_of_firesOnce {s : State} {pt : TimedPoint} (h : s.FiresOnce pt) : s.run.runState = .live := by
  have hdue := h.1
  simp only [State.due, Bool.and_eq_true, beq_iff_eq] at hdue
  obtain ⟨⟨hlive, -⟩, -⟩ := hdue
  exact hlive

theorem fireFilled_config_of_firesOnce {s : State} {pt : TimedPoint} (h : s.FiresOnce pt) (hv : (s.slot pt).angle.isSome = true) :
    (fireFilled pt s).config = s.config := by
  rw [fireFilled_of_firesOnce h hv]
  simp

/-- A point that is armed again at once (R66): it does its act and is armed for the cycle after. -/
theorem fireFilled_rearms {s : State} {pt : TimedPoint} (h : s.FiresOnce pt) (hv : (s.slot pt).angle.isSome = true)
    (hnext : advanceSlot pt (s.slot pt) = armSlot pt ((s.slot pt).cycle + 1)) :
    (fireAct pt (s.slot pt) s).RearmedTo (fireFilled pt s) pt (s.slot pt).cycle := by
  rw [fireFilled_of_firesOnce h hv, hnext]
  exact armSlot_rearms ..

/-- The mark of a defect that only a PRESENT blank takes (R74, R80), with the test on the records alone. -/
theorem addDefect_of_present_eq (n : Serial) (d : Defect) (x : Presence) (s : State) :
    (if x = .present then addDefect n d s else s)
      = { s with
          track :=
            { s.track with
              records :=
                if x = .present then
                  s.track.records.map fun r : Blank => if r.serial = n then { r with defects := r.defects.insert d } else r
                else s.track.records } } := by
  split <;> rfl

/-! ## The ON of a valve segment (R80) -/

section ValveOn

variable {s : State} {v j : Fin 4} {b : Blank} {x : ActionSlot}

theorem valveOnFires_iff (hlive : s.run.runState = .live) :
    valveOnFires s b = true ↔ s.shaft.motion = .moving ∧ b.presence = .present ∧ s.inForce .gumInhibit = false := by
  simp [valveOnFires, hlive, and_assoc]

theorem fireValveOn_of_fires (hb : s.track.find x.serial = some b) (hf : valveOnFires s b = true) :
    fireValveOn v j x s = openSegment v ⟨j, x.cycle, x.target⟩ s := by
  simp [fireValveOn, hb, hf]

theorem fireValveOn_of_not_fires (hb : s.track.find x.serial = some b) (hf : ¬valveOnFires s b = true) :
    fireValveOn v j x s = if b.presence = .present then addDefect x.serial .noGum s else s := by
  simp [fireValveOn, hb, hf]

end ValveOn

/-- Settles O23, by whether R80's conditions hold; the outputs are those of `setValveOutputs`, and the firing keeps the configuration. -/
theorem valveOnOpensItsSegment : Obligations.ValveOnOpensItsSegment := by
  intro s v j b pt x fires honce hfilled hheld
  have hrearm : (fireValveOn v j x s).RearmedTo (fireFilled pt s) pt x.cycle := fireFilled_rearms honce hfilled rfl
  have hfires : valveOnFires s b = true ↔ fires := valveOnFires_iff (live_of_firesOnce honce)
  refine ⟨fireFilled pt s, rfl, fun i => ?_, fun hf => ?_, fun hf => ?_⟩
  · rw [setValveOutputs_gum, fireFilled_config_of_firesOnce honce hfilled]
  · rwa [fireValveOn_of_fires hheld (hfires.mpr hf)] at hrearm
  · rwa [fireValveOn_of_not_fires hheld (mt hfires.mp hf), addDefect_of_present_eq] at hrearm

/-! ## The camera (R75) -/

/-- The CAMERA pulse in the scheduler alone: on a disabled channel nothing changes (R83). -/
theorem startPulse_camera_eq (s : State) :
    startPulse .camera s
      = { s with
          sched :=
            if s.config.channels.camera.enable then
              { s.sched with
                cameraPulse := some (s.time + s.config.channels.camera.width)
                outputs := { s.sched.outputs with camera := true } }
            else s.sched } := by
  unfold startPulse
  dsimp only
  split <;> rfl

section Camera

variable {s : State} {b : Blank} {p : Profile}

theorem cameraFires_iff : cameraFires p b = true ↔ p.header.cameraUse = true ∧ b.presence = .present := by
  simp [cameraFires]

theorem fireCamera_of_fires {n : Serial} (hb : s.track.find n = some b) (hp : s.profiles.contentOf b.slot = some p)
    (hf : cameraFires p b = true) :
    fireCamera n s
      = post (.blankAtCamera n p.header.order p.header.expected)
          (startPulse .camera (s.updateBlank n fun r => { r with cameraDone := true })) := by
  simp [fireCamera, hb, hp, hf]

theorem fireCamera_of_not_fires {n : Serial} (hb : s.track.find n = some b) (hp : s.profiles.contentOf b.slot = some p)
    (hf : ¬cameraFires p b = true) : fireCamera n s = s := by
  simp [fireCamera, hb, hp, hf]

end Camera

/-- Settles O26, by whether R75's conditions hold. -/
theorem cameraFiresForPresentBlanks : Obligations.CameraFiresForPresentBlanks := by
  intro s b p x c fires honce hfilled hheld hprofile
  have hrearm : (fireCamera x.serial s).RearmedTo (fireFilled .camera s) .camera x.cycle := fireFilled_rearms honce hfilled rfl
  refine ⟨fireFilled .camera s, rfl, fun hf => ?_, fun hf => ?_⟩
  · rwa [fireCamera_of_fires hheld hprofile (cameraFires_iff.mpr hf), startPulse_camera_eq] at hrearm
  · rwa [fireCamera_of_not_fires hheld hprofile (mt cameraFires_iff.mp hf)] at hrearm

end Sys2Proof.Machine
end

section
/-! PROOFS. The register monitor's capture edge (chapter 5): the bounds of a window as positions, and an edge inside and outside them (R89). -/

namespace Sys2Proof.Machine

section CaptureEdge

variable {ch : RegChannel} {s : State} {w : WindowRecord}

/-- The bounds of R89 as positions: the open target is (c − 1) × P + e − W, the close target (c − 1) × P + e + W. -/
theorem insideWindow_iff (hw : w.w ≤ w.e) :
    insideWindow s w = true ↔
      atOrBeyond s.pitch s.shaft.position ((cycleStart s.pitch w.cycle + (w.e - w.w)) % modulusOf s.pitch) = true
        ∧ atOrBeyond s.pitch s.shaft.position ((cycleStart s.pitch w.cycle + w.e + w.w) % modulusOf s.pitch) = false := by
  have hopen : offsetPosition s.pitch (cycleStart s.pitch w.cycle) ((w.e : Int) - (w.w : Int))
      = (cycleStart s.pitch w.cycle + (w.e - w.w)) % modulusOf s.pitch := by
    rw [← Nat.cast_sub hw, offsetPosition_nat]
  have hclose : offsetPosition s.pitch (cycleStart s.pitch w.cycle) ((w.e : Int) + (w.w : Int))
      = (cycleStart s.pitch w.cycle + w.e + w.w) % modulusOf s.pitch := by
    rw [← Nat.cast_add, offsetPosition_nat, Nat.add_assoc]
  rw [insideWindow, hopen, hclose, Bool.and_eq_true, Bool.not_eq_true']

theorem captureEdge_of_closed (h : (s.channel ch).window = none) : captureEdge ch s = s := by
  simp [captureEdge, h]

theorem captureEdge_of_held (h : (s.channel ch).window = some w)
    (hheld : s.run.runState = .live ∧ w.capture = none ∧ s.shaft.lastDir = .forward ∧ insideWindow s w = true) :
    captureEdge ch s = s.setChannel ch { s.channel ch with window := some { w with capture := some (captureAngle s w) } } := by
  simp only [captureEdge, h]
  exact if_pos hheld

theorem captureEdge_of_not_held (h : (s.channel ch).window = some w)
    (hheld : ¬(s.run.runState = .live ∧ w.capture = none ∧ s.shaft.lastDir = .forward ∧ insideWindow s w = true)) :
    captureEdge ch s = s := by
  simp only [captureEdge, h]
  exact if_neg hheld

end CaptureEdge

/-- Settles O17: CLOSED or OPEN, and in an open window by whether R89's conditions hold, its bounds read as positions. -/
theorem captureEdgeIsHeldInsideItsWindow : Obligations.CaptureEdgeIsHeldInsideItsWindow := by
  intro ch s
  refine ⟨fun hclosed => congrArg Host.Outcome.next (captureEdge_of_closed hclosed), fun w hopen hw => ?_⟩
  intro start m held
  have hconditions :
      (s.run.runState = .live ∧ w.capture = none ∧ s.shaft.lastDir = .forward ∧ insideWindow s w = true) ↔ held := by
    rw [insideWindow_iff hw]
    exact Iff.rfl
  exact ⟨fun h => congrArg Host.Outcome.next (captureEdge_of_held hopen (hconditions.mpr h)),
    fun h => congrArg Host.Outcome.next (captureEdge_of_not_held hopen (mt hconditions.mp h))⟩

end Sys2Proof.Machine
end

section
/-! PROOFS. The gate logic (chapter 6): the gate decision of an undecided blank (R114 to R119) and VERDICT case by case (R107 to R110). -/

namespace Sys2Proof.Machine

/-! ## Writing a record that the queue holds once (R39, R50) -/

section Write

variable {s : State} {n : Serial} {b : Blank}

theorem updateBlank_congr {f g : Blank → Blank} (h : ∀ r ∈ s.track.records, r.serial = n → f r = g r) :
    s.updateBlank n f = s.updateBlank n g := by
  have hrecords : (s.track.records.map fun r : Blank => if r.serial = n then f r else r)
      = s.track.records.map fun r : Blank => if r.serial = n then g r else r :=
    List.map_congr_left fun r hr => ite_congr rfl (h r hr) fun _ => rfl
  unfold State.updateBlank
  rw [hrecords]

theorem updateBlank_of_unique (hb : ∀ r ∈ s.track.records, r.serial = n → r = b) (f : Blank → Blank) :
    s.updateBlank n f = s.updateBlank n fun _ => f b :=
  updateBlank_congr fun r hr hn => congrArg f (hb r hr hn)

theorem updateBlank_of_fixed (hb : ∀ r ∈ s.track.records, r.serial = n → r = b) {f : Blank → Blank} (hf : f b = b) :
    s.updateBlank n f = s := by
  have hid : s.updateBlank n f = s.updateBlank n id :=
    updateBlank_congr fun r hr hn => by rw [hb r hr hn, hf, id]
  rw [hid]
  simp [State.updateBlank]

theorem serial_of_find (h : s.track.find n = some b) : b.serial = n := by
  simpa using List.find?_some h

end Write

/-! ## The gate decision (R114 to R119) -/

section Gate

variable {s : State} {n : Serial} {b : Blank} {p : Profile}

theorem countReject_of_room (h : s.batch.current.body.rejects + 1 < 2 ^ 32) :
    countReject s
      = s.setOpenBatch
          { s.batch.current with body := { s.batch.current.body with rejects := s.batch.current.body.rejects + 1 } } := by
  have hroom : s.batch.current.body.rejects < countLimit := Nat.lt_sub_of_add_lt h
  simp [countReject, State.openBatch, countUpTo, hroom]

theorem recordOutcome_of_passed (d : DefectSet) :
    recordOutcome n d .passed s = s.updateBlank n fun r => { r with defects := d }.setOutcome .passed := rfl

/-- A diversion writes the outcome and the counted mark in one, and counts the reject. -/
theorem recordOutcome_of_diverted (d : DefectSet) :
    recordOutcome n d .diverted s
      = countReject
          (s.updateBlank n fun r => (({ r with defects := d } : Blank).setOutcome .diverted).setCounted .reject) := by
  have hserial (r : Blank) : (({ r with defects := d } : Blank).setOutcome .diverted).serial = r.serial := by
    unfold Blank.setOutcome
    split <;> rfl
  exact congrArg countReject (updateBlank_updateBlank s n _ _ hserial)

theorem decideGate_of_absent (hb : s.track.find n = some b) (ho : b.outcome = .pending) (ha : b.presence = .absent)
    (hu : ∀ r ∈ s.track.records, r.serial = n → r = b) :
    decideGate n s = setGateLevel false (s.updateBlank n fun _ => { b with outcome := .skipped }) := by
  have hskips : decideGate n s = setGateLevel false (s.updateBlank n fun r => r.setOutcome .skipped) := by
    simp [decideGate, hb, ho, ha]
  rw [hskips, updateBlank_of_unique hu]
  simp only [Blank.setOutcome, if_pos ho]

theorem decideGate_of_present (hb : s.track.find n = some b) (ho : b.outcome = .pending) (ha : b.presence = .present)
    (hp : s.profiles.contentOf b.slot = some p) :
    decideGate n s
      = setGateLevel (outcomeOf p.header (settledDefects p.header b s.batch) == .diverted)
          (recordOutcome n (settledDefects p.header b s.batch) (outcomeOf p.header (settledDefects p.header b s.batch)) s) := by
  simp [decideGate, hb, ho, ha, hp]

theorem decideGate_of_passes (hb : s.track.find n = some b) (ho : b.outcome = .pending) (ha : b.presence = .present)
    (hp : s.profiles.contentOf b.slot = some p) (hu : ∀ r ∈ s.track.records, r.serial = n → r = b)
    (hd : ¬diverts p.header (settledDefects p.header b s.batch) = true) :
    decideGate n s
      = setGateLevel false
          (s.updateBlank n fun _ => { b with defects := settledDefects p.header b s.batch, outcome := .passed }) := by
  have houtcome : outcomeOf p.header (settledDefects p.header b s.batch) = .passed := if_neg hd
  rw [decideGate_of_present hb ho ha hp, houtcome, recordOutcome_of_passed, updateBlank_of_unique hu]
  simp only [Blank.setOutcome, if_pos ho]
  rfl

theorem decideGate_of_diverts (hb : s.track.find n = some b) (ho : b.outcome = .pending) (ha : b.presence = .present)
    (hc : b.counted = .no) (hroom : s.batch.current.body.rejects + 1 < 2 ^ 32) (hp : s.profiles.contentOf b.slot = some p)
    (hu : ∀ r ∈ s.track.records, r.serial = n → r = b) (hd : diverts p.header (settledDefects p.header b s.batch) = true) :
    decideGate n s
      = setGateLevel true
          ((s.updateBlank n fun _ =>
              { b with defects := settledDefects p.header b s.batch, outcome := .diverted, counted := .reject }).setOpenBatch
            { s.batch.current with body := { s.batch.current.body with rejects := s.batch.current.body.rejects + 1 } }) := by
  have houtcome : outcomeOf p.header (settledDefects p.header b s.batch) = .diverted := if_pos hd
  rw [decideGate_of_present hb ho ha hp, houtcome, recordOutcome_of_diverted, updateBlank_of_unique hu]
  simp only [Blank.setOutcome, if_pos ho, Blank.setCounted, if_pos hc]
  exact congrArg (setGateLevel true) (countReject_of_room hroom)

end Gate

/-- What stands armed again after its firing stands so after any other account of what the firing did. -/
theorem rearmedTo_of_eq {u v t : State} {pt : TimedPoint} {c : Serial} (h : u = v) (ht : u.RearmedTo t pt c) :
    v.RearmedTo t pt c := h ▸ ht

/-- Settles O28, by presence, and for a PRESENT blank by whether its settled defects divert. -/
theorem gateDecidesItsBlank : Obligations.GateDecidesItsBlank := by
  intro s b p x h settled diverted level reject honce hfilled hheld hprofile hknown hundecided huncounted hroom hunique
  have hrearm : (decideGate x.serial s).RearmedTo (fireFilled .gate s) .gate x.cycle := fireFilled_rearms honce hfilled rfl
  refine ⟨fireFilled .gate s, rfl, rearmedTo_of_eq ?_ hrearm⟩
  by_cases habsent : b.presence = .absent
  · have hlevel : level = false := by simp [level, habsent]
    have hreject : reject = 0 := by simp [reject, hlevel]
    rw [decideGate_of_absent hheld hundecided habsent hunique, hlevel, hreject]
    simp only [if_pos habsent]
    rfl
  have hpresent : b.presence = .present := by
    cases hpresence : b.presence with
    | pending => exact absurd hpresence hknown
    | present => rfl
    | absent => exact absurd hpresence habsent
  by_cases hdiverted : diverted = true
  · have hlevel : level = true := by simp [level, hpresent, hdiverted]
    have hreject : reject = 1 := by simp [reject, hlevel]
    rw [hreject] at hroom
    rw [decideGate_of_diverts hheld hundecided hpresent huncounted hroom hprofile hunique hdiverted, hlevel, hreject]
    simp only [if_neg habsent, if_pos hdiverted]
    rfl
  · have hlevel : level = false := by simp [level, hdiverted]
    have hreject : reject = 0 := by simp [reject, hlevel]
    rw [decideGate_of_passes hheld hundecided hpresent hprofile hunique hdiverted, hlevel, hreject]
    simp only [if_neg habsent, if_neg hdiverted]
    rfl

/-! ## VERDICT (R107 to R110) -/

theorem judgementOf_of_ge {n : Nat} (h : 2 ≤ n) : judgementOf n = none := by
  unfold judgementOf
  split
  · omega
  · omega
  · rfl

/-- The two codes of a verdict result as the byte spells them (R203). -/
theorem judgementOf_of_lt {x : Byte} (h : x.toNat < 2) : judgementOf x.toNat = some (if x = 0 then .pass else .reject) := by
  have hx : x = 0 ∨ x = 1 := by bv_omega
  rcases hx with rfl | rfl <;> rfl

theorem verdictUnfound_eq (n : Serial) (source : Nat) :
    verdictUnfound n source = serialBytes n ++ byteOf source ++ [0, 0, 0] := by
  simp [verdictUnfound, byteOf, flagByte]

theorem verdictFound_eq (n : Serial) (source : Nat) (o : GateOutcome) (stored : Bool) :
    verdictFound n source o stored
      = serialBytes n ++ byteOf source ++ [1, BitVec.ofNat 8 o.code, if stored then 1 else 0] := by
  simp [verdictFound, byteOf, flagByte]

section TakeVerdict

variable {s : State} {n : Serial} {source result : Nat} {code : Byte} {i : Fin 4} {j : Judgement}

theorem takeVerdict_of_invalid (h : 4 ≤ source ∨ 2 ≤ result) :
    takeVerdict n source result code s = ⟨s, .refused, .invalid, serialBytes n ++ byteOf source ++ [0, 0, 0]⟩ := by
  rw [← verdictUnfound_eq]
  unfold takeVerdict
  rcases h with hsource | hresult
  · rw [slotOf_of_ge hsource]
  · rw [judgementOf_of_ge hresult]
    cases slotOf source <;> rfl

theorem takeVerdict_of_unknown (hj : judgementOf result = some j) (h : s.track.lookup n = .unknownSerial) :
    takeVerdict n i.val result code s = ⟨s, .refused, .unknownSerial, serialBytes n ++ byteOf i.val ++ [0, 0, 0]⟩ := by
  simp [takeVerdict, slotOf_val, hj, h, verdictUnfound_eq]

theorem takeVerdict_of_gone (hj : judgementOf result = some j) (h : s.track.lookup n = .gone) :
    takeVerdict n i.val result code s = ⟨s, .late, .gone, serialBytes n ++ byteOf i.val ++ [0, 0, 0]⟩ := by
  simp [takeVerdict, slotOf_val, hj, h, verdictUnfound_eq]

theorem takeVerdict_of_found {b : Blank} (hj : judgementOf result = some j) (hb : s.track.find n = some b) :
    takeVerdict n i.val result code s = judgeBlank b i j code s := by
  simp [takeVerdict, slotOf_val, hj, lookup_of_find hb]

end TakeVerdict

/-! ### The cases of a found record (R107, cases 4 to 8; R108, R109) -/

section Outcome

variable {e : SourceSet} {b : Blank} {i : Fin 4} {j : Judgement} {code : Byte}

theorem verdictOutcome_of_absent (h : b.presence = .absent) :
    verdictOutcome e b i j code = ⟨.refused, .absent, false, b.verdicts⟩ := if_pos h

theorem verdictOutcome_of_notExpected (ha : b.presence ≠ .absent) (he : e.has i = false) :
    verdictOutcome e b i j code = ⟨.refused, .notExpected, false, b.verdicts⟩ := by
  simp [verdictOutcome, ha, he]

theorem verdictOutcome_of_early (ha : b.presence ≠ .absent) (he : e.has i ≠ false) (hc : b.cameraDone = false) :
    verdictOutcome e b i j code = ⟨.refused, .early, false, b.verdicts⟩ := by
  simp [verdictOutcome, ha, he, hc]

theorem verdictOutcome_of_decided (ha : b.presence ≠ .absent) (he : e.has i ≠ false) (hc : b.cameraDone ≠ false)
    (ho : b.outcome ≠ .pending) : verdictOutcome e b i j code = lateVerdict b.verdicts i j code := by
  simp [verdictOutcome, ha, he, hc, ho]

theorem verdictOutcome_of_undecided (ha : b.presence ≠ .absent) (he : e.has i ≠ false) (hc : b.cameraDone ≠ false)
    (ho : b.outcome = .pending) : verdictOutcome e b i j code = timelyVerdict b.verdicts i j code := by
  simp [verdictOutcome, ha, he, hc, ho]

end Outcome

section Lists

variable {vs : List VerdictEntry} {v : VerdictEntry} {i : Fin 4} {j : Judgement} {code : Byte}

theorem lateVerdict_of_new (h : entryOf vs i = none) :
    lateVerdict vs i j code = ⟨.late, .decided, true, vs ++ [⟨i, j, code, true⟩]⟩ := by
  simp [lateVerdict, h]

theorem lateVerdict_of_entry (h : entryOf vs i = some v) : lateVerdict vs i j code = ⟨.late, .decided, false, vs⟩ := by
  simp [lateVerdict, h]

theorem timelyVerdict_of_new (h : entryOf vs i = none) :
    timelyVerdict vs i j code = ⟨.ok, .none, true, vs ++ [⟨i, j, code, false⟩]⟩ := by
  simp [timelyVerdict, h]

theorem timelyVerdict_of_overruled (h : entryOf vs i = some v) (hr : v.result = .pass ∧ j = .reject) :
    timelyVerdict vs i j code = ⟨.ok, .none, true, overrule vs i code⟩ := by
  simp [timelyVerdict, h, hr]

theorem timelyVerdict_of_duplicate (h : entryOf vs i = some v) (hr : ¬(v.result = .pass ∧ j = .reject)) :
    timelyVerdict vs i j code = ⟨.refused, .duplicate, false, vs⟩ := by
  simp [timelyVerdict, h, hr]

end Lists

/-! ### The answer and what it stores (R110) -/

section Judge

variable {s : State} {n : Serial} {b : Blank} {p : Profile} {i : Fin 4} {j : Judgement} {given : Nat} {code : Byte}
  {result : Result} {reason : Reason}

/-- A found record: what the outcome of R107 answers, and the list it leaves. -/
theorem takeVerdict_of_outcome {stored : Bool} {vs : List VerdictEntry} (hj : judgementOf given = some j)
    (hb : s.track.find n = some b) (hp : s.profiles.contentOf b.slot = some p)
    (ho : verdictOutcome p.header.expected b i j code = ⟨result, reason, stored, vs⟩) :
    takeVerdict n i.val given code s
      = ⟨s.updateBlank n fun r => { r with verdicts := vs }, result, reason,
          serialBytes n ++ byteOf i.val ++ [1, BitVec.ofNat 8 b.outcome.code, if stored then 1 else 0]⟩ := by
  have hexpected : s.expectedOf b = p.header.expected := by simp [State.expectedOf, hp]
  rw [takeVerdict_of_found hj hb, judgeBlank, hexpected, ho, serial_of_find hb, verdictFound_eq]

/-- An outcome that hands the record's own list back changes nothing. -/
theorem takeVerdict_of_kept {stored : Bool} (hj : judgementOf given = some j) (hb : s.track.find n = some b)
    (hp : s.profiles.contentOf b.slot = some p) (hu : ∀ r ∈ s.track.records, r.serial = n → r = b)
    (ho : verdictOutcome p.header.expected b i j code = ⟨result, reason, stored, b.verdicts⟩) :
    takeVerdict n i.val given code s
      = ⟨s, result, reason,
          serialBytes n ++ byteOf i.val ++ [1, BitVec.ofNat 8 b.outcome.code, if stored then 1 else 0]⟩ := by
  rw [takeVerdict_of_outcome hj hb hp ho, updateBlank_of_fixed hu rfl]

end Judge

theorem exec_verdict_of_answer {s t : State} {p : PortId} {tag : Byte} {payload : List Byte} (hl : payload.length = 7)
    (h : s.CanEnd p (commandFrame 0x40 tag payload)) {result : Result} {reason : Reason} {answer : List Byte}
    (ha : takeVerdict (u32At payload 0) (u8At payload 4) (u8At payload 5) (payload.getD 6 0)
        (s.ended p (commandFrame 0x40 tag payload)) = ⟨t, result, reason, answer⟩) :
    exec (.verdict p tag payload) s = .next (respond p ⟨0x40, tag, result, reason, answer⟩ t) := by
  have htaken := takeCommand_of_answer h (by omega) ha
  rw [hl] at htaken
  exact congrArg Host.Outcome.next htaken

/-- Settles O50: invalid codes, then the lookup of the serial, then the cases of a found record in R107's order. -/
theorem verdictsAreTakenByTheirCase : Obligations.VerdictsAreTakenByTheirCase := by
  intro p tag payload s hlength hend ended n source result code reply
  have htrack : ended.track = s.track := ended_track ..
  have hprofiles : ended.profiles = s.profiles := ended_profiles ..
  have hbyte : byteOf source.toNat = [source] := byteOf_u8At payload 4
  have hanswer {r : Result} {reason : Reason} {rest : List Byte} {t : State}
      (ha : takeVerdict n source.toNat result.toNat code ended
        = ⟨t, r, reason, serialBytes n ++ byteOf source.toNat ++ rest⟩) : reply r reason rest t := by
    rw [hbyte] at ha
    exact exec_verdict_of_answer hlength hend ha
  rw [← htrack, ← hprofiles]
  refine ⟨fun hinvalid => hanswer (takeVerdict_of_invalid hinvalid), fun i hsource hresult => ?_⟩
  intro judgement
  have hj : judgementOf result.toNat = some judgement := judgementOf_of_lt hresult
  rw [hsource] at hanswer
  refine ⟨fun hempty => ?_, fun h habsent hrecords hhigh => ?_, fun b c hheld hunique hprofile => ?_⟩
  · exact hanswer (takeVerdict_of_unknown hj (lookup_of_no_records hempty))
  · split
    case isTrue hbeyond =>
      have hnewer := (serialNewer_iff _ _).mpr hbeyond
      exact hanswer (takeVerdict_of_unknown hj (lookup_of_newer habsent hrecords hhigh hnewer))
    case isFalse hbehind =>
      have hold := mt (serialNewer_iff _ _).mp hbehind
      exact hanswer (takeVerdict_of_gone hj (lookup_of_not_newer habsent hrecords hhigh hold))
  intro outcome entry stored
  have hkept {r : Result} {reason : Reason}
      (ho : verdictOutcome c.header.expected b i judgement code = ⟨r, reason, false, b.verdicts⟩) :
      reply r reason [1, outcome, 0] ended := hanswer (takeVerdict_of_kept hj hheld hprofile hunique ho)
  have hstored {r : Result} {reason : Reason} {vs : List VerdictEntry}
      (ho : verdictOutcome c.header.expected b i judgement code = ⟨r, reason, true, vs⟩) :
      reply r reason [1, outcome, 1] (stored vs) := hanswer (takeVerdict_of_outcome hj hheld hprofile ho)
  split_ifs with habsent hexpected hcamera hdecided
  · exact hkept (verdictOutcome_of_absent habsent)
  · exact hkept (verdictOutcome_of_notExpected habsent hexpected)
  · exact hkept (verdictOutcome_of_early habsent hexpected hcamera)
  · have hlate := verdictOutcome_of_decided (i := i) (j := judgement) (code := code) habsent hexpected hcamera hdecided
    cases hentry : entry with
    | none => exact hstored (hlate.trans (lateVerdict_of_new hentry))
    | some v => exact hkept (hlate.trans (lateVerdict_of_entry hentry))
  · have hundecided := not_not.mp hdecided
    have htimely := verdictOutcome_of_undecided (i := i) (j := judgement) (code := code) habsent hexpected hcamera hundecided
    cases hentry : entry with
    | none => exact hstored (htimely.trans (timelyVerdict_of_new hentry))
    | some v =>
      dsimp only
      split
      case isTrue hoverruled => exact hstored (htimely.trans (timelyVerdict_of_overruled hentry hoverruled))
      case isFalse hduplicate => exact hkept (htimely.trans (timelyVerdict_of_duplicate hentry hduplicate))

end Sys2Proof.Machine
end

section
/-! PROOFS. The batch counter's close attempt (chapter 7): the close with room in the queue and its retirement check (R34, R128), and the
hold of a batch that finds none (R129). -/

namespace Sys2Proof.Machine

/-! ## The retirement check of a RETIRING slot (R34) -/

section Retirement

variable {s : State} {i : Fin 4}

theorem retireCheck_of_referenced (h : s.profiles.retiring = some i) (hr : s.references i = true) : retireCheck s = s := by
  simp [retireCheck, h, hr]

theorem retireCheck_of_unreferenced (h : s.profiles.retiring = some i) (hr : s.references i = false) :
    retireCheck s
      = post (.profileRetired i (s.profiles.orderOf i)) { s with profiles := s.profiles.setState i .ready } := by
  simp [retireCheck, h, hr]

end Retirement

/-! ## The close (R128) -/

/-- R128, steps 1 to 3: the open batch has joined the queue, BATCH_CLOSED is posted, and a fresh open batch has the next number. -/
def State.batchQueued (s : State) (reason : CloseReason) : State :=
  let closed : ClosedBatch := ⟨s.batch.current.body, reason⟩
  { s with
    batch := ⟨OpenBatch.fresh (s.batch.current.body.number + 1), s.batch.queue ++ [closed]⟩
    ports := s.portsAfter [.batchClosed closed] }

theorem closeBatch_eq (reason : CloseReason) (s : State) : closeBatch reason s = retireCheck (s.batchQueued reason) := rfl

/-- The fresh open batch references no slot, so that only a record can hold a RETIRING one back (R34). -/
theorem batchQueued_references_iff (s : State) (reason : CloseReason) (i : Fin 4) :
    (s.batchQueued reason).references i = true ↔ ∃ b ∈ s.track.records, b.slot = i := by
  simp [State.references, State.batchQueued, OpenBatch.fresh]

section Close

variable {s : State} {reason : CloseReason} {i : Fin 4}

theorem closeBatch_of_none_retiring (h : ∀ i : Fin 4, (s.profiles.slot i).state ≠ .retiring) :
    closeBatch reason s = s.batchQueued reason :=
  (closeBatch_eq reason s).trans (retireCheck_of_none (retiring_eq_none h))

theorem closeBatch_of_carried (h : s.profiles.retiring = some i) (hc : ∃ b ∈ s.track.records, b.slot = i) :
    closeBatch reason s = s.batchQueued reason :=
  (closeBatch_eq reason s).trans (retireCheck_of_referenced h ((batchQueued_references_iff ..).mpr hc))

theorem closeBatch_of_not_carried (h : s.profiles.retiring = some i) (hc : ¬∃ b ∈ s.track.records, b.slot = i) :
    closeBatch reason s
      = post (.profileRetired i (s.profiles.orderOf i))
          { s.batchQueued reason with profiles := s.profiles.setState i .ready } :=
  have hfree : (s.batchQueued reason).references i = false := Bool.eq_false_iff.mpr (mt (batchQueued_references_iff ..).mp hc)
  (closeBatch_eq reason s).trans (retireCheck_of_unreferenced h hfree)

end Close

/-! ## The attempt (R78, R129) -/

section Attempt

variable {s : State} {why : ClosePending} {c : Serial}

theorem attemptClose_of_room (h : s.batch.queue.length < 8) :
    attemptClose why c s
      = if (closeBatch why.reason s).run.runState = .live then (closeBatch why.reason s).kickedFor c
        else closeBatch why.reason s :=
  (if_pos h).trans (armKick_eq c _)

theorem attemptClose_of_full (h : 8 ≤ s.batch.queue.length) : attemptClose why c s = holdBatch why s := if_neg (Nat.not_lt.mpr h)

theorem holdBatch_of_held (h : s.batch.current.body.held = true) : holdBatch why s = s := if_pos h

theorem holdBatch_of_not_held {o : BatchOrder} (h : s.batch.current.body.held = false) (ho : s.batch.current.body.order = some o) :
    holdBatch why s
      = post (.backlog s.batch.current.body.number o.order why s.batch.current.body.good s.batch.current.body.strays)
          { s with batch := { s.batch with current := ⟨{ s.batch.current.body with held := true }, why⟩ } } := by
  simp [holdBatch, State.openBatch, State.setOpenBatch, BatchBody.orderNumber, h, ho]

end Attempt

/-- Settles O30: with room by the RETIRING slot and whether a record carries it, without room by whether the batch is held already. -/
theorem closeAttemptsCloseOrHold : Obligations.CloseAttemptsCloseOrHold := by
  intro why reason c s body closed batch kicked hwhy
  obtain rfl : why.reason = reason := by rcases hwhy with ⟨rfl, rfl⟩ | ⟨rfl, rfl⟩ | ⟨rfl, rfl⟩ <;> rfl
  refine ⟨fun hroom => ?_, fun hfull hheld => ?_, fun o hfull hheld horder => ?_⟩
  · have hkicked {u : State} (hu : closeBatch why.reason s = u) : attemptClose why c s = kicked u :=
      hu ▸ attemptClose_of_room hroom
    refine ⟨fun hnone => hkicked (closeBatch_of_none_retiring hnone), fun i hi honly => ?_⟩
    have hretiring := retiring_eq_some hi honly
    split_ifs with hcarried
    · exact hkicked (closeBatch_of_carried hretiring hcarried)
    · exact hkicked (closeBatch_of_not_carried hretiring hcarried)
  · exact (attemptClose_of_full hfull).trans (holdBatch_of_held hheld)
  · exact (attemptClose_of_full hfull).trans (holdBatch_of_not_held hheld horder)

end Sys2Proof.Machine
end

section
/-! PROOFS. The halt causes (chapter 9): the set and PERMIT that goes with it (R167, R168), STOP (R170) and CLEAR_HALT (R171). -/

namespace Sys2Proof.Machine

/-! ## Sets of halt causes and PERMIT (R167, R168) -/

theorem causeSet_isEmpty_iff (x : CauseSet) : x.isEmpty = true ↔ x = CauseSet.empty := by
  obtain ⟨operator, encoder, backlog, satellite, register⟩ := x
  simp [CauseSet.isEmpty, CauseSet.empty, and_assoc]

@[simp] theorem causeSet_minus_empty (x : CauseSet) : x.minus CauseSet.empty = x := by
  simp [CauseSet.minus, CauseSet.empty]

@[simp] theorem causeSet_empty_minus (x : CauseSet) : CauseSet.empty.minus x = CauseSet.empty := rfl

/-- A set from which some causes were taken has nothing that the set before it had not. -/
@[simp] theorem causeSet_minus_minus_self (x y : CauseSet) : (x.minus y).minus x = CauseSet.empty := by
  simp [CauseSet.minus, CauseSet.empty, Bool.and_right_comm]

theorem permitOf_eq (r : RunState) (causes : CauseSet) : permitOf r causes = decide (r ≠ .off ∧ causes = CauseSet.empty) := by
  rw [Bool.eq_iff_iff]
  simp [permitOf, causeSet_isEmpty_iff]

/-- PERMIT of a lawful part, as `permitOf` gives it (R168). -/
theorem permit_eq_of_permitFollows {s : State} (h : s.PermitFollows) : s.run.permit = permitOf s.run.runState s.run.causes := by
  rw [permitOf_eq, Bool.eq_iff_iff, decide_eq_true_iff]
  exact h

@[simp] theorem permitOf_operator (r : RunState) (causes : CauseSet) : permitOf r { causes with operator := true } = false := by
  simp [permitOf, CauseSet.isEmpty]

/-! ## STOP (R170) -/

section Stop

variable {s : State}

theorem handCause_operator_of_held (h : s.run.causes.operator = true) : handCause .operator s = s := if_pos h

theorem handCause_operator_of_new (h : s.run.causes.operator = false) :
    handCause .operator s
      = post (.halt { s.run.causes with operator := true } ⟨true, false, false, false, false⟩ CauseSet.empty s.run.runState false)
          { s with run := ⟨s.run.runState, { s.run.causes with operator := true }, false⟩ } := by
  simp [handCause, CauseSet.has, CauseSet.insert, CauseSet.minus, CauseSet.empty, postHalt, State.setRun, h]

/-- What STOP answers and leaves, by whether the set holds OPERATOR already. -/
theorem stopRun_eq (h : s.PermitFollows) :
    stopRun s
      = answerOk (byteOf { s.run.causes with operator := true }.mask ++ flagByte false)
          (if s.run.causes.operator then s
          else
            post (.halt { s.run.causes with operator := true } ⟨true, false, false, false, false⟩ CauseSet.empty s.run.runState false)
              { s with run := ⟨s.run.runState, { s.run.causes with operator := true }, false⟩ }) := by
  cases hheld : s.run.causes.operator with
  | false => simp [stopRun, handCause_operator_of_new hheld]
  | true =>
    have hcauses : { s.run.causes with operator := true } = s.run.causes := by rw [← hheld]
    have hpermit : s.run.permit = false := by rw [permit_eq_of_permitFollows h, ← hcauses, permitOf_operator]
    simp [stopRun, handCause_operator_of_held hheld, hcauses, hpermit]

end Stop

theorem exec_stop_of_answer {s t : State} {p : PortId} {tag : Byte} (h : s.CanEnd p (commandFrame 0x12 tag []))
    {result : Result} {reason : Reason} {answer : List Byte}
    (ha : stopRun (s.ended p (commandFrame 0x12 tag [])) = ⟨t, result, reason, answer⟩) :
    exec (.stop p tag []) s = .next (respond p ⟨0x12, tag, result, reason, answer⟩ t) :=
  congrArg Host.Outcome.next (takeCommand_of_answer h (Nat.zero_le _) ha)

/-! ## CLEAR_HALT (R171) -/

section Clear

variable {s : State} {named : CauseSet}

/-- Only causes that stand in the set are removed. -/
theorem causes_minus_minus_removedCauses (named : CauseSet) (s : State) :
    s.run.causes.minus (s.run.causes.minus (removedCauses named s)) = removedCauses named s := by
  have hfield (held asked : Bool) : (held && !(held && !(asked && held))) = (asked && held) := by cases held <;> simp
  have hjudged (held asked met : Bool) : (held && !(held && !(asked && held && met))) = (asked && held && met) := by
    cases held <;> simp
  simp only [removedCauses, CauseSet.minus, hfield, hjudged]

/-- What the removal leaves, by whether it removes a cause (R169). -/
theorem removeCauses_eq (named : CauseSet) (s : State) :
    removeCauses (removedCauses named s) s =
      (let left := s.run.causes.minus (removedCauses named s)
      let permit := permitOf s.run.runState left
      if removedCauses named s = CauseSet.empty then s
      else
        post (.halt left CauseSet.empty (removedCauses named s) s.run.runState permit)
          { s with run := ⟨s.run.runState, left, permit⟩ }) := by
  simp [removeCauses, causeSet_isEmpty_iff, postHalt, causes_minus_minus_removedCauses, State.setRun]

theorem clearHalt_of_moving (h : s.shaft.motion = .moving) : clearHalt named s = refuse .moving s := if_pos h

theorem removeCauses_run (hp : s.PermitFollows) :
    (removeCauses (removedCauses named s) s).run =
      (let left := s.run.causes.minus (removedCauses named s)
      ⟨s.run.runState, left, permitOf s.run.runState left⟩) := by
  rw [removeCauses_eq]
  by_cases hnone : removedCauses named s = CauseSet.empty
  · simp [hnone, ← permit_eq_of_permitFollows hp]
  · simp [hnone]

theorem clearHalt_of_atRest (hp : s.PermitFollows) (h : s.shaft.motion = .atRest) :
    clearHalt named s =
      (let left := s.run.causes.minus (removedCauses named s)
      answerOk (byteOf left.mask ++ byteOf s.run.runState.code ++ flagByte (permitOf s.run.runState left))
        (removeCauses (removedCauses named s) s)) := by
  have hmoving : s.shaft.motion ≠ .moving := by simp [h]
  rw [clearHalt, if_neg hmoving]
  simp only [removeCauses_run hp]

end Clear

theorem exec_clearHalt_of_answer {s t : State} {p : PortId} {tag n : Byte} (h : s.CanEnd p (commandFrame 0x13 tag [n]))
    {result : Result} {reason : Reason} {answer : List Byte}
    (ha : clearHalt (causeSetOf n.toNat) (s.ended p (commandFrame 0x13 tag [n])) = ⟨t, result, reason, answer⟩) :
    exec (.clearHalt p tag [n]) s = .next (respond p ⟨0x13, tag, result, reason, answer⟩ t) :=
  congrArg Host.Outcome.next (takeCommand_of_answer h (by decide : 1 ≤ 61) ha)

/-- Settles O47: STOP by whether OPERATOR stands in the set, CLEAR_HALT by the motion flag and whether a cause is removed. -/
theorem haltCausesAreSetAndCleared : Obligations.HaltCausesAreSetAndCleared := by
  intro p tag s hpermit
  refine ⟨fun hstop => ?_, fun n hclear => ?_⟩
  · have hrun : (s.ended p (commandFrame 0x12 tag [])).run = s.run := by simp
    have hlawful : (s.ended p (commandFrame 0x12 tag [])).PermitFollows := by simpa [State.PermitFollows] using hpermit
    rw [← hrun]
    exact exec_stop_of_answer hstop (stopRun_eq hlawful)
  · have hrun : (s.ended p (commandFrame 0x13 tag [n])).run = s.run := by simp
    have hbatch : (s.ended p (commandFrame 0x13 tag [n])).batch = s.batch := by simp
    have hshaft : (s.ended p (commandFrame 0x13 tag [n])).shaft = s.shaft := by simp
    have hhold : (s.ended p (commandFrame 0x13 tag [n])).inForce .hold = s.inForce .hold := by
      simp [State.inForce, State.entryInForce]
    have hlawful : (s.ended p (commandFrame 0x13 tag [n])).PermitFollows := by simpa [State.PermitFollows] using hpermit
    rw [← hrun, ← hbatch, ← hshaft, ← hhold]
    refine ⟨fun hmoving => ?_, fun hrest => ?_⟩
    · exact exec_clearHalt_of_answer hclear (clearHalt_of_moving hmoving)
    · have hanswer := clearHalt_of_atRest (named := causeSetOf n.toNat) hlawful hrest
      simp only [removeCauses_eq, permitOf_eq] at hanswer
      exact exec_clearHalt_of_answer hclear hanswer

end Sys2Proof.Machine
end

section
/-! PROOFS. RUN_RESET (chapter 9): what each block's part of it leaves (R16, R36, R55, R85, R105, R143, R160), the notices in R173's order,
and the whole part afterwards (`resetRun_eq`). -/

namespace Sys2Proof.Machine

/-! ## Notices posted in their order (R195) -/

/-- What the three ports hold after the notices `ns` were posted (R195); `State.portsAfter` by the ports alone. -/
def Ports.after (x : Ports) (ns : List Notice) : Ports :=
  ⟨ns.foldl Port.queueNotice x.port1, ns.foldl Port.queueNotice x.port2, ns.foldl Port.queueNotice x.port3⟩

@[simp] theorem ports_after_nil (x : Ports) : x.after [] = x := rfl

@[simp] theorem ports_after_append (x : Ports) (ns ms : List Notice) : (x.after ns).after ms = x.after (ns ++ ms) := by
  simp [Ports.after]

theorem ports_after_get (s : State) (ns : List Notice) (p : PortId) : (s.ports.after ns).get p = s.portAfter p ns := by
  cases p <;> rfl

theorem post_eq (n : Notice) (s : State) : post n s = { s with ports := s.ports.after [n] } := rfl

/-! ## The profile store (R36) -/

theorem afterRunReset_eq (x : SlotState) : x.afterRunReset = if x = .empty then .empty else .ready := by
  cases x <;> rfl

@[simp] theorem runReset_profile_slot (p : Profiles) (i : Fin 4) :
    p.runReset.slot i = { p.slot i with state := if (p.slot i).state = .empty then .empty else .ready } := by
  rw [← afterRunReset_eq]
  exact mapVector_getElem ..

/-- No slot is RETIRING after R36, so that no retirement check of a RUN_RESET posts PROFILE_RETIRED. -/
theorem runReset_retiring (p : Profiles) : p.runReset.retiring = none := by
  refine retiring_eq_none fun i => ?_
  rw [runReset_profile_slot]
  dsimp only
  split <;> simp

/-! ## The tracking queue (R55) -/

/-- The notice of the records a flush removes, when there are any (R52, R55). -/
def Track.flushNotices (t : Track) : List Notice :=
  match t.records.head?, t.records.getLast? with
  | some oldest, some newest => [.trackFlushed oldest.serial newest.serial]
  | _, _ => []

theorem flushRecords_of_none_retiring {s : State} (h : s.profiles.retiring = none) :
    flushRecords s = { s with track := { s.track with records := [] }, ports := s.ports.after s.track.flushNotices } := by
  cases hrecords : s.track.records with
  | nil =>
    have hsame : { s.track with records := [] } = s.track := by rw [← hrecords]
    simp [flushRecords, Track.flushNotices, hrecords, hsame]
  | cons b bs =>
    simp only [flushRecords, Track.flushNotices, hrecords, List.head?_cons, List.getLast?_cons]
    exact retireCheck_of_none h

/-- The tracking queue after R55. -/
def Track.runReset (t : Track) : Track :=
  { t with records := [], highWater := none, splicePending := false, boundaryPassed := false }

theorem runResetTrack_eq {s : State} (h : s.profiles.retiring = none) :
    runResetTrack s = { s with track := s.track.runReset, ports := s.ports.after s.track.flushNotices } := by
  rw [runResetTrack, flushRecords_of_none_retiring h]
  rfl

/-! ## The batch counter (R143) -/

/-- The fate of the open batch as its byte (R203): closed 0, lost 1, discarded 2. -/
def Batches.fateByte (b : Batches) : Byte :=
  if b.current.body.good = 0 then 2 else if b.queue.length < 8 then 0 else 1

theorem byteOf_fate (b : Batches) : byteOf b.fate.code = [b.fateByte] := by
  unfold Batches.fate Batches.fateByte batchQueueLimit
  split_ifs <;> rfl

/-- The notice of the open batch's fate (R143). -/
def Batches.fateNotices (b : Batches) : List Notice :=
  if b.current.body.good = 0 then []
  else if b.queue.length < 8 then [.batchClosed ⟨b.current.body, .runReset⟩] else [.batchLost b.current.body]

/-- The batch counter after R143. -/
def Batches.runReset (b : Batches) : Batches where
  current := OpenBatch.fresh (if b.fateByte = 0 then b.current.body.number + 1 else b.current.body.number)
  queue := b.queue ++ if b.fateByte = 0 then [⟨b.current.body, .runReset⟩] else []

theorem runReset_batch_of_closed {b : Batches} (h : b.fateByte = 0) :
    b.runReset = ⟨OpenBatch.fresh (b.current.body.number + 1), b.queue ++ [⟨b.current.body, .runReset⟩]⟩ := by
  rw [Batches.runReset, if_pos h, if_pos h]

theorem runReset_batch_of_not_closed {b : Batches} (h : b.fateByte ≠ 0) :
    b.runReset = ⟨OpenBatch.fresh b.current.body.number, b.queue⟩ := by
  rw [Batches.runReset, if_neg h, if_neg h, List.append_nil]

theorem runResetBatch_of_none_retiring {s : State} (h : s.profiles.retiring = none) :
    runResetBatch s = { s with batch := s.batch.runReset, ports := s.ports.after s.batch.fateNotices } := by
  by_cases hgood : s.batch.current.body.good = 0
  · have hbyte : s.batch.fateByte ≠ 0 := by simp [Batches.fateByte, hgood]
    have hnotices : s.batch.fateNotices = [] := if_pos hgood
    have hfate : s.batch.fate = .discarded := if_pos hgood
    rw [runResetBatch, hfate, runReset_batch_of_not_closed hbyte, hnotices]
    exact retireCheck_of_none h
  by_cases hroom : s.batch.queue.length < 8
  · have hbyte : s.batch.fateByte = 0 := by simp [Batches.fateByte, hgood, hroom]
    have hnotices : s.batch.fateNotices = [.batchClosed ⟨s.batch.current.body, .runReset⟩] := by
      simp [Batches.fateNotices, hgood, hroom]
    have hfate : s.batch.fate = .closed := by simp [Batches.fate, batchQueueLimit, hgood, hroom]
    rw [runResetBatch, hfate, runReset_batch_of_closed hbyte, hnotices]
    exact retireCheck_of_none h
  · have hbyte : s.batch.fateByte ≠ 0 := by simp [Batches.fateByte, hgood, hroom]
    have hnotices : s.batch.fateNotices = [.batchLost s.batch.current.body] := by simp [Batches.fateNotices, hgood, hroom]
    have hfate : s.batch.fate = .lost := by simp [Batches.fate, batchQueueLimit, hgood, hroom]
    rw [runResetBatch, hfate, runReset_batch_of_not_closed hbyte, hnotices]
    exact retireCheck_of_none h

/-! ## The action scheduler (R85) -/

/-- The action scheduler after R85: every slot UNARMED, every segment closed, every pulse ended, every output inactive. -/
def Sched.runReset (x : Sched) : Sched where
  slots := mapVector (fun a => { a with phase := .unarmed, clampNoted := false, passed := false }) x.slots
  segments := Vector.replicate 4 []
  patchPulse := none
  cameraPulse := none
  kickPulse := none
  gateLevel := false
  outputs := Outputs.inactive

theorem runResetSched_eq (s : State) : runResetSched s = { s with sched := s.sched.runReset } := rfl

theorem runReset_action_slot (x : Sched) (pt : TimedPoint) :
    x.runReset.slot pt = { x.slot pt with phase := .unarmed, clampNoted := false, passed := false } := by
  simp [Sched.slot, Sched.runReset]

/-! ## The whole part (R173) -/

/-- The notices of a RUN_RESET in R173's order: TRACK_FLUSHED, the open batch's, HALT and RUN_STATE. -/
def State.runResetNotices (s : State) : List Notice :=
  s.track.flushNotices ++ s.batch.fateNotices
    ++ (if s.run.causes = CauseSet.empty then [] else [.halt CauseSet.empty CauseSet.empty s.run.causes .off false])
    ++ [.runState s.run.runState .off .runReset none none s.track.nextSerial CauseSet.empty false]

/-- The part in OFF as R173 leaves it, block by block, the notices `ns` having been posted. -/
def State.resetTo (s : State) (ns : List Notice) : State :=
  { s with
    shaft := s.shaft.runReset
    profiles := s.profiles.runReset
    track := s.track.runReset
    sched := s.sched.runReset
    reg := RegisterMonitor.reset
    batch := s.batch.runReset
    sat := s.sat.halt
    run := ⟨.off, CauseSet.empty, false⟩
    ports := s.ports.after ns }

theorem runResetBlocks_eq (s : State) : runResetBlocks s = s.resetTo (s.track.flushNotices ++ s.batch.fateNotices) := by
  unfold runResetBlocks
  dsimp only
  rw [runResetTrack_eq (runReset_retiring _), runResetSched_eq, runResetBatch_of_none_retiring (runReset_retiring _),
    ports_after_append]
  rfl

/-- A notice posted to the part in OFF joins those of the reset. -/
theorem post_resetTo (n : Notice) (s : State) (ns : List Notice) : post n (s.resetTo ns) = s.resetTo (ns ++ [n]) := by
  simp [post_eq, State.resetTo]

theorem postHalt_resetTo (causes : CauseSet) (s : State) (ns : List Notice) :
    postHalt causes (s.resetTo ns) = s.resetTo (ns ++ [.halt CauseSet.empty CauseSet.empty causes .off false]) := by
  rw [postHalt, post_resetTo]
  simp [State.resetTo]

theorem postRunState_resetTo (before : RunState) (s : State) (ns : List Notice) :
    postRunState before .runReset (s.resetTo ns)
      = s.resetTo (ns ++ [.runState before .off .runReset none none s.track.nextSerial CauseSet.empty false]) :=
  post_resetTo ..

/-- What a RUN_RESET leaves of the whole part. -/
theorem resetRun_eq (s : State) : resetRun s = s.resetTo s.runResetNotices := by
  rw [resetRun, runResetBlocks_eq, State.runResetNotices]
  by_cases hcauses : s.run.causes = CauseSet.empty
  · rw [if_pos ((causeSet_isEmpty_iff _).mpr hcauses), if_pos hcauses, postRunState_resetTo, List.append_nil]
  · rw [if_neg (mt (causeSet_isEmpty_iff _).mp hcauses), if_neg hcauses, postHalt_resetTo, postRunState_resetTo]

/-! ## The command -/

section Answer

variable {s : State}

theorem runReset_of_moving (h : s.shaft.motion = .moving) : runReset s = refuse .moving s := if_pos h

theorem runReset_of_atRest (h : s.shaft.motion = .atRest) :
    runReset s
      = answerOk
          (byteOf s.run.runState.code ++ byteOf s.track.records.length ++ [s.batch.fateByte]
            ++ serialBytes s.batch.current.body.number ++ byteOf s.run.causes.mask ++ serialBytes s.track.nextSerial)
          (resetRun s) := by
  have hmoving : s.shaft.motion ≠ .moving := by simp [h]
  rw [runReset, if_neg hmoving, byteOf_fate]
  rfl

end Answer

theorem exec_runReset_of_answer {s t : State} {p : PortId} {tag : Byte} (h : s.CanEnd p (commandFrame 0x14 tag []))
    {result : Result} {reason : Reason} {answer : List Byte}
    (ha : runReset (s.ended p (commandFrame 0x14 tag [])) = ⟨t, result, reason, answer⟩) :
    exec (.runReset p tag []) s = .next (respond p ⟨0x14, tag, result, reason, answer⟩ t) :=
  congrArg Host.Outcome.next (takeCommand_of_answer h (Nat.zero_le _) ha)

/-- Settles O48: a moving machine refuses, and at rest each block is read off `resetRun_eq`. -/
theorem runResetReturnsThePartToOff : Obligations.RunResetReturnsThePartToOff := by
  intro p tag s hend
  obtain ⟨hshaft, hprofiles, htrack, -, -, hbatch, hsat, hrun, hconfig, hwebOk, htime, -, hpending⟩ :=
    ended_frame p (commandFrame 0x14 tag []) s
  rw [← hshaft, ← hprofiles, ← htrack, ← hbatch, ← hsat, ← hrun, ← hconfig, ← hwebOk, ← htime, ← hpending]
  refine ⟨fun hmoving => exec_runReset_of_answer hend (runReset_of_moving hmoving), fun hrest => ?_⟩
  refine ⟨_, exec_runReset_of_answer hend (runReset_of_atRest hrest), ?_⟩
  rw [resetRun_eq]
  refine ⟨ports_after_get _ _, rfl, runReset_profile_slot _, rfl, rfl, rfl, rfl, rfl, rfl, fun pt => ?_, fun v => ?_, fun ch => ?_, rfl, rfl,
    fun ch => ?_, rfl, rfl, rfl, rfl, rfl, rfl, fun n => ?_, rfl, rfl, rfl, rfl, rfl, rfl⟩
  · have hslot := runReset_action_slot (s.ended p (commandFrame 0x14 tag [])).sched pt
    exact ⟨congrArg ActionSlot.phase hslot, congrArg ActionSlot.clampNoted hslot⟩
  · exact Vector.getElem_replicate ..
  · cases ch <;> rfl
  · cases ch <;> rfl
  · exact Vector.getElem_replicate ..

end Sys2Proof.Machine
end

section
/-! PROOFS. The state after reset meets the laws that every step keeps (O3), and so does the state after a hardware reset (R176). -/

namespace Sys2Proof.Machine

theorem reset_runLawful : State.reset.RunLawful :=
  ⟨by unfold State.PermitFollows; decide, by unfold State.HomedInLive; decide⟩

theorem reset_noticesInOrder : State.reset.NoticesInOrder := by
  intro p
  cases p <;> exact ⟨by decide, by decide, by decide⟩

theorem reset_batchesRun : State.reset.BatchesRun := by
  unfold State.BatchesRun
  decide

theorem reset_outputsLawful : State.reset.OutputsLawful := by
  refine ⟨?_, ?_, ?_⟩
  · unfold State.GumFollows; decide
  · unfold State.OutputsFollow; decide
  · unfold State.QuietInOff; decide

theorem reset_slotsLawful : State.reset.SlotsLawful := by
  have harm : State.reset.profiles.arm = none := rfl
  have hoff : State.reset.run.runState = .off := rfl
  refine ⟨⟨?_, ?_, ?_, ?_⟩, fun i => ?_, fun i => ?_, fun _ i => ?_, fun h => absurd hoff h⟩
  · intro i j; simp
  · intro i j; simp
  · intro i j; simp
  · intro i j; simp
  · simp
  · simp [harm]
  · simp

theorem reset_trackLawful : State.reset.TrackLawful := by
  refine ⟨?_, ?_, by decide⟩
  · unfold State.RecordsRun; decide
  · unfold State.QueueFollows; decide

theorem reset_recordsLawful : State.reset.RecordsLawful := by
  intro b hb
  cases hb

theorem reset_valuesClamped : State.reset.ValuesClamped := by
  refine ⟨fun ch => ?_, fun _ => rfl⟩
  cases ch <;> decide

/-- Settles O3, law by law. -/
theorem resetStateIsLawful : Obligations.ResetStateIsLawful :=
  ⟨reset_runLawful, reset_noticesInOrder, reset_batchesRun, reset_outputsLawful, reset_slotsLawful, reset_trackLawful,
    reset_recordsLawful, reset_valuesClamped⟩

section HardwareReset

variable {encA encB : Bool} {s t : State}

/-- What a hardware reset leaves, but for the levels, the ports and the model's own bookkeeping (R176). -/
theorem hardwareReset_blocks (h : execHardwareReset encA encB s = .next t) :
    t.profiles = State.reset.profiles ∧ t.track = State.reset.track ∧ t.sched = State.reset.sched ∧ t.reg = State.reset.reg
      ∧ t.batch = State.reset.batch ∧ t.run = State.reset.run ∧ t.config = State.reset.config
      ∧ t.shaft = { State.reset.shaft with quadA := encA, quadB := encB } := by
  cases h
  exact ⟨rfl, rfl, rfl, rfl, rfl, rfl, rfl, rfl⟩

/-- A port at a hardware reset holds no notice and has lost none (R201). -/
theorem hardwareReset_port (h : execHardwareReset encA encB s = .next t) (p : PortId) :
    (t.port p).notices = [] ∧ (t.port p).lost = 0 ∧ (t.port p).attention = false := by
  have hquiet (x : Port) : x.hardwareReset.notices = [] ∧ x.hardwareReset.lost = 0 ∧ x.hardwareReset.attention = false := by
    unfold Port.hardwareReset
    split <;> exact ⟨rfl, rfl, rfl⟩
  cases h
  cases p <;> exact hquiet _

end HardwareReset

end Sys2Proof.Machine
end

section
/-! PROOFS. What a step is made of: `Move` lists once the changes that the commands and the time base make of the part, `Moves` is a run
of them that creates a bounded number of blanks, and `step_cases_moves` says that a step is a hardware reset or such a run. What every
change keeps, every step keeps; the statements about all steps are proved over `Move`, change by change. -/

namespace Sys2Proof.Machine

/-! ## The changes -/

/-- Where the part stands in an event: between two events; within one, from its passage to the setting of the valve outputs (R70, R82),
which the firing of one point never leaves; or at a homing whose run state is not yet LIVE (R5, R164). -/
inductive Phase where
  | between | within | firing | arriving

/-- The valve outputs are still to be set (R82). -/
def Phase.Fires (a : Phase) : Prop := a = .within ∨ a = .firing

/-- Where a change comes from: the port of the command, if it came in on one, and whether the command is a NOTICE_READ (R199). -/
structure Origin where
  port : Option PortId
  reads : Bool

/-- Two ports that hold the same notices, lost count and attention line (R196, R197). -/
def Port.SameQueue (x y : Port) : Prop := y.notices = x.notices ∧ y.lost = x.lost ∧ y.attention = x.attention

/-- The laws of one blank record (R39, R117, R119). -/
def Blank.Lawful (b : Blank) : Prop := b.CountedOnce ∧ b.HoldDiverts ∧ b.OneVerdictEach

/-- A record that `c` replaces: it only advances, and keeps the laws. -/
def Blank.StepsTo (b c : Blank) : Prop := b.Advances c ∧ (b.Lawful → c.Lawful)

/-- The part after an encoder fault, before its notices (R8, R51, R85, R104, R165). -/
def State.faulted (s : State) (kind : FaultKind) (detail : Int) : State :=
  let left := leaveLive (markFault { s with shaft :=
    { s.shaft with latch := ⟨kind, detail⟩, homed := false, position := s.shaft.position % 2 ^ 48 } })
  { left with reg := left.reg.abandon }.setRun .homing (s.run.causes.insert .encoder)

/-- The part after START was taken, before its notice (R163). -/
def State.started (s : State) (i : Fin 4) : State :=
  { s with profiles := { s.profiles.setState i .active with arm := none }, sat := s.sat.begin s.time }.setRun .homing s.run.causes

/-- The profiles after the changeover to `arm.slot`, before the retirement check (R33). -/
def Profiles.changedOver (p : Profiles) (arm : ChangeoverArm) : Profiles :=
  { (match p.active with
      | none => p
      | some a => p.setState a .retiring).setState arm.slot .active with arm := none }

/-- The part after a creation and the removal that goes with it (R43, R45). -/
def State.withCreated (s : State) (slot : Fin 4) : State :=
  let added := addRecord slot s
  { added with track := { added.track with records := added.track.records.filter fun b =>
      !(b.serial == s.track.nextSerial - BitVec.ofNat 32 (s.config.stations.delivery + 1)) } }

/-- The part with a batch closed, before its notice (R128). -/
def State.withClosed (s : State) (reason : CloseReason) : State :=
  { s with batch := ⟨OpenBatch.fresh (s.openBatch.body.number + 1), s.batch.queue ++ [⟨s.openBatch.body, reason⟩]⟩ }

/-- The changes that a step of the part is made of, but for a hardware reset and the creation of a blank. -/
inductive Move (who : Origin) : Phase → State → Phase → State → Prop
  | aside (a : Phase) (s : State) (sat : Poller) (webOk : Bool) (time free : Nat) (pending : List Instr) :
      Move who a s a { s with sat := sat, webOk := webOk, time := time, freeCount := free, pending := pending }
  | post (a : Phase) (n : Notice) (s : State) : Move who a s a (post n s)
  | port {p : PortId} {s : State} {x : Port} (hp : who.port = some p) (hx : (s.port p).SameQueue x) :
      Move who .between s .between (s.setPort p x)
  | read {p : PortId} (k : Nat) {s : State} (hp : who.port = some p) (hr : who.reads = true) :
      Move who .between s .between (s.setPort p ((s.port p).withNotices ((s.port p).notices.drop k)))
  | causes (a : Phase) (c : CauseSet) (s : State) : Move who a s a (s.setRun s.run.runState c)
  | shaft (a : Phase) {s : State} {x : Shaft} (hh : x.homed = s.shaft.homed)
      (hm : x.motion = .atRest →
        s.shaft.motion = .atRest ∨ s.run.runState ≠ .live ∨ ∀ v : Fin 4, s.sched.segments[v.val] = []) :
      Move who a s a { s with shaft := x }
  | home {s : State} (c : Serial) (hh : s.shaft.homed = false) (hr : s.run.runState = .homing) :
      Move who .between s .arriving (setHomed c s)
  | live {s : State} (ht : s.config.stations.delivery ≤ 31 → s.track.records ≠ []) : Move who .arriving s .within (s.setRun .live s.run.causes)
  | fault (kind : FaultKind) (detail : Int) {s : State} (hh : s.shaft.homed = true) :
      Move who .between s .between (s.faulted kind detail)
  | slots (a : Phase) (s : State) (x : Vector ActionSlot 42) : Move who a s a { s with sched := { s.sched with slots := x } }
  | passed (s : State) (b : Bool) : Move who .between s .between { s with track := { s.track with boundaryPassed := b } }
  | enter (s : State) : Move who .between s .within s
  | leave (s : State) : Move who .within s .between (setValveOutputs s)
  | segment {a : Phase} {s : State} (ha : a.Fires) (v : Fin 4) {xs : List SegmentInstance}
      (hx : xs ≠ [] → s.sched.segments[v.val] ≠ [] ∨ s.run.runState = .live ∧ s.shaft.motion = .moving) :
      Move who a s a (s.setSegments v xs)
  | closeAll (s : State) : Move who .within s .within (closeSegments s)
  | pulse (a : Phase) (ch : PulseChannel) {s : State} (hr : s.run.runState = .live) : Move who a s a (startPulse ch s)
  | pulseEnd (ch : PulseChannel) (s : State) : Move who .between s .between (endPulse ch s)
  | gate (a : Phase) (level : Bool) {s : State} (hr : s.run.runState = .live) : Move who a s a (setGateLevel level s)
  | monitor (a : Phase) {s : State} {x : RegisterMonitor} (hr : s.run.runState = .live)
      (hx : ∀ ch, (x.get ch).value = (s.channel ch).value ∨ (x.get ch).value.natAbs ≤ s.config.register.maxOf ch) :
      Move who a s a { s with reg := x }
  | record (a : Phase) {s : State} {n : Serial} {f : Blank → Blank} (hs : ∀ b, (f b).serial = b.serial)
      (hf : ∀ b, s.track.find n = some b → b.StepsTo (f b)) : Move who a s a (s.updateBlank n f)
  | flush {a : Phase} {s : State} (hr : s.run.runState ≠ .live) :
      Move who a s a { s with track := { s.track with records := [] } }
  | splicePending {s : State} (hr : s.run.runState = .homing) :
      Move who .between s .between { s with track := { s.track with splicePending := true } }
  | retire (a : Phase) {i : Fin 4} {s : State} (hi : s.profiles.retiring = some i) :
      Move who a s a { s with profiles := s.profiles.setState i .ready }
  | changeover (a : Phase) {arm : ChangeoverArm} {s : State} (ha : s.profiles.arm = some arm) :
      Move who a s a { s with profiles := s.profiles.changedOver arm }
  | spliceSeen (a : Phase) (s : State) : Move who a s a (markSpliceSeen s)
  | close (a : Phase) (reason : CloseReason) {s : State} (hq : s.batch.queue.length < 8) : Move who a s a (s.withClosed reason)
  | batch (a : Phase) {s : State} {b : OpenBatch} (hb : b.body.number = s.openBatch.body.number) :
      Move who a s a (s.setOpenBatch b)
  | acknowledge {b : ClosedBatch} {rest : List ClosedBatch} {s : State} (hq : s.batch.queue = b :: rest) :
      Move who .between s .between { s with batch := { s.batch with queue := rest } }
  | start {i : Fin 4} {s : State} (hr : s.run.runState = .off) (hi : (s.profiles.slot i).state = .ready) :
      Move who .between s .between (s.started i)
  | reset (s : State) : Move who .between s .between (s.resetTo [])
  | config {x : ConfigSection} {c : List Byte} {s : State} (hr : s.run.runState = .off)
      (hc : ∀ b ∈ x.checks s.config.checkPitch c, b = true) :
      Move who .between s .between { s with config := s.config.write x c }
  | staging (x : Staging) (s : State) : Move who .between s .between (s.setStaging x)
  | commit {i : Fin 4} (content : Profile) {s : State} (hi : (s.profiles.slot i).state.inUse = false) :
      Move who .between s .between { s with profiles := s.profiles.setSlot i (committedSlot content) }
  | erase {i : Fin 4} {s : State} (hi : (s.profiles.slot i).state.inUse = false) :
      Move who .between s .between { s with profiles := s.profiles.setSlot i ⟨.empty, none, none⟩ }
  | arm {i : Fin 4} (t : Trigger) {s : State} (hr : s.run.runState ≠ .off) (hb : s.profiles.busy = false)
      (hi : (s.profiles.slot i).state = .ready) :
      Move who .between s .between { s with profiles := { s.profiles.setState i .staged with arm := some ⟨i, t⟩ } }
  | cancel {i : Fin 4} {s : State} (hi : s.profiles.staged = some i) :
      Move who .between s .between { s with profiles := { s.profiles.setState i .ready with arm := none } }

/-- A run of changes in which at most `n` blanks are created. -/
inductive Moves (who : Origin) : Nat → Phase → State → Phase → State → Prop
  | none (n : Nat) (a : Phase) (s : State) : Moves who n a s a s
  | cons {n : Nat} {a b c : Phase} {s t u : State} (h : Move who a s b t) (hs : Moves who n b t c u) : Moves who n a s c u
  | create {n : Nat} {a b : Phase} {s t : State} (slot : Fin 4) (hh : s.shaft.homed = true)
      (hs : Moves who n a (s.withCreated slot) b t) : Moves who (n + 1) a s b t

/-- A run of changes within one phase and without a creation. -/
abbrev Stays (who : Origin) (a : Phase) (s t : State) : Prop := Moves who 0 a s a t

/-- What every change and every creation keeps, a run of changes keeps; `Inv` may bound the creations made. -/
theorem Moves.keeps {who : Origin} {Inv : Nat → Phase → State → Prop}
    (hmove : ∀ k a s b t, Move who a s b t → Inv k a s → Inv k b t)
    (hcreate : ∀ k a s slot, s.shaft.homed = true → Inv k a s → Inv (k + 1) a (s.withCreated slot))
    (hmono : ∀ k l a s, k ≤ l → Inv k a s → Inv l a s)
    {n k : Nat} {a b : Phase} {s t : State} (h : Moves who n a s b t) (hs : Inv k a s) : Inv (k + n) b t := by
  induction h generalizing k with
  | none n a s => exact hmono _ _ _ _ (Nat.le_add_right _ _) hs
  | cons h _ ih => exact ih (hmove _ _ _ _ _ h hs)
  | @create n a b s t slot hh _ ih =>
    have ht := ih (hcreate _ _ _ slot hh hs)
    rwa [Nat.add_assoc, Nat.add_comm 1] at ht

/-- What every change and every creation keeps, a run of changes keeps. -/
theorem Moves.preserves {who : Origin} {Inv : Phase → State → Prop}
    (hmove : ∀ a s b t, Move who a s b t → Inv a s → Inv b t)
    (hcreate : ∀ a s slot, s.shaft.homed = true → Inv a s → Inv a (s.withCreated slot))
    {n : Nat} {a b : Phase} {s t : State} (h : Moves who n a s b t) (hs : Inv a s) : Inv b t :=
  Moves.keeps (Inv := fun _ => Inv) (k := 0) (fun _ => hmove) (fun _ => hcreate) (fun _ _ _ _ _ h => h) h hs

section Composition

variable {who : Origin} {m n : Nat} {a b c : Phase} {s t u : State}

theorem Moves.le (h : Moves who m a s b t) (hn : m ≤ n) : Moves who n a s b t := by
  induction h generalizing n with
  | none m a s => exact .none _ _ _
  | cons h _ ih => exact .cons h (ih hn)
  | create slot hh _ ih =>
    cases n with
    | zero => omega
    | succ n => exact .create slot hh (ih (by omega))

theorem Moves.append (h : Moves who m a s b t) (h' : Moves who n b t c u) : Moves who (m + n) a s c u := by
  induction h with
  | none m a s => exact h'.le (by omega)
  | cons h _ ih => exact .cons h (ih h')
  | create slot hh _ ih => rw [Nat.succ_add]; exact .create slot hh (ih h')

theorem Move.one (h : Move who a s b t) : Moves who n a s b t := .cons h (.none _ _ _)

/-- A run without a creation, before another. -/
theorem Moves.before (h : Moves who 0 a s b t) (h' : Moves who n b t c u) : Moves who n a s c u :=
  (h.append h').le (by omega)

/-- A run without a creation, after another. -/
theorem Moves.after (h : Moves who n a s b t) (h' : Moves who 0 b t c u) : Moves who n a s c u := h.append h'

theorem Stays.refl (a : Phase) (s : State) : Stays who a s s := .none _ _ _

/-- A run without a creation goes through a list. -/
theorem stays_foldl {α : Type} {f : State → α → State} (hf : ∀ s x, Stays who a s (f s x)) (xs : List α) (s : State) :
    Stays who a s (xs.foldl f s) := by
  induction xs generalizing s with
  | nil => exact .refl a s
  | cons x xs ih => exact (hf s x).before (ih _)

end Composition

/-! ## What the operations change (chapters 2 to 9) -/

section Records

variable {who : Origin} {a : Phase} {s : State} {n : Serial}

theorem stepsTo_of_kept {b c : Blank} (hserial : c.serial = b.serial) (hslot : c.slot = b.slot)
    (hpresence : b.presence ≠ .pending → c.presence = b.presence) (hdefects : ∀ d, b.defects.has d = true → c.defects.has d = true)
    (hhold : c.defects.holdDivert = b.defects.holdDivert) (hprint : ∀ e, b.printError = some e → c.printError = some e)
    (hpatch : ∀ e, b.patchError = some e → c.patchError = some e) (hcamera : b.cameraDone = true → c.cameraDone = true)
    (hverdicts : c.verdicts = b.verdicts) (houtcome : c.outcome = b.outcome) (hcounted : c.counted = b.counted) : b.StepsTo c := by
  refine ⟨⟨hserial, hslot, hpresence, hdefects, hprint, hpatch, hcamera, by rw [hverdicts], fun _ => houtcome, fun _ => hcounted⟩, ?_⟩
  rintro ⟨hcount, hdiverts, hone⟩
  refine ⟨?_, ?_, ?_⟩
  · simpa only [Blank.CountedOnce, houtcome, hcounted] using hcount
  · simpa only [Blank.HoldDiverts, hhold, houtcome] using hdiverts
  · simpa only [Blank.OneVerdictEach, hverdicts] using hone

theorem has_insert_of_has (x : DefectSet) (d e : Defect) (h : x.has e = true) : (x.insert d).has e = true := by
  cases d <;> cases e <;> simp_all [DefectSet.insert, DefectSet.has]

theorem stepsTo_insert (b : Blank) {d : Defect} (hd : d ≠ .holdDivert) : b.StepsTo { b with defects := b.defects.insert d } :=
  stepsTo_of_kept rfl rfl (fun _ => rfl) (fun e => has_insert_of_has _ d e) (by cases d <;> simp_all [DefectSet.insert])
    (fun _ h => h) (fun _ h => h) id rfl rfl rfl

theorem stepsTo_setPresence (b : Blank) (p : Presence) : b.StepsTo (b.setPresence p) := by
  unfold Blank.setPresence
  split
  case isTrue hp => exact stepsTo_of_kept rfl rfl (absurd hp) (fun _ h => h) rfl (fun _ h => h) (fun _ h => h) id rfl rfl rfl
  case isFalse => exact stepsTo_of_kept rfl rfl (fun _ => rfl) (fun _ h => h) rfl (fun _ h => h) (fun _ h => h) id rfl rfl rfl

theorem stepsTo_setError (b : Blank) (ch : RegChannel) (e : Int) : b.StepsTo (b.setError ch e) := by
  cases ch
  case print =>
    simp only [Blank.setError, Blank.setPrintError]
    split
    case isTrue hp =>
      exact stepsTo_of_kept rfl rfl (fun _ => rfl) (fun _ h => h) rfl (by simp [hp]) (fun _ h => h) id rfl rfl rfl
    case isFalse => exact stepsTo_of_kept rfl rfl (fun _ => rfl) (fun _ h => h) rfl (fun _ h => h) (fun _ h => h) id rfl rfl rfl
  case patch =>
    simp only [Blank.setError, Blank.setPatchError]
    split
    case isTrue hp =>
      exact stepsTo_of_kept rfl rfl (fun _ => rfl) (fun _ h => h) rfl (fun _ h => h) (by simp [hp]) id rfl rfl rfl
    case isFalse => exact stepsTo_of_kept rfl rfl (fun _ => rfl) (fun _ h => h) rfl (fun _ h => h) (fun _ h => h) id rfl rfl rfl

theorem stepsTo_cameraDone (b : Blank) : b.StepsTo { b with cameraDone := true } :=
  stepsTo_of_kept rfl rfl (fun _ => rfl) (fun _ h => h) rfl (fun _ h => h) (fun _ h => h) (fun _ => rfl) rfl rfl rfl

theorem stepsTo_faultMark (b : Blank) : b.StepsTo b.faultMark := by
  unfold Blank.faultMark
  split
  · exact stepsTo_insert b (by decide)
  · exact stepsTo_of_kept rfl rfl (fun _ => rfl) (fun _ h => h) rfl (fun _ h => h) (fun _ h => h) id rfl rfl rfl

/-- A PASSED blank is counted good or stray at most once (R119). -/
theorem stepsTo_setCounted {b : Blank} (hb : b.outcome = .passed) {c : Counted} (hc : c = .good ∨ c = .stray) :
    b.StepsTo (b.setCounted c) := by
  unfold Blank.setCounted
  split
  case isTrue hno =>
    refine ⟨⟨rfl, rfl, fun _ => rfl, fun _ h => h, fun _ h => h, fun _ h => h, id, List.prefix_refl _, fun _ => rfl,
      absurd hno⟩, ?_⟩
    rintro ⟨-, hdiverts, hone⟩
    refine ⟨⟨?_, fun _ => hb⟩, hdiverts, hone⟩
    obtain rfl | rfl := hc <;> simp [hb]
  case isFalse => exact stepsTo_of_kept rfl rfl (fun _ => rfl) (fun _ h => h) rfl (fun _ h => h) (fun _ h => h) id rfl rfl rfl

theorem serial_setPresence (b : Blank) (p : Presence) : (b.setPresence p).serial = b.serial := by
  unfold Blank.setPresence; split <;> rfl

theorem serial_setCounted (b : Blank) (c : Counted) : (b.setCounted c).serial = b.serial := by
  unfold Blank.setCounted; split <;> rfl

theorem serial_setOutcome (b : Blank) (o : GateOutcome) : (b.setOutcome o).serial = b.serial := by
  unfold Blank.setOutcome; split <;> rfl

theorem addDefect_stays {d : Defect} (hd : d ≠ .holdDivert) (n : Serial) (s : State) : Stays who a s (addDefect n d s) :=
  (Move.record a (f := fun b => { b with defects := b.defects.insert d }) (fun _ => rfl) fun b _ => stepsTo_insert b hd).one

end Records

section Operations

variable {who : Origin} {a : Phase} {s : State}

/-! ### Slots, targets and arming (R57 to R69) -/

theorem setSlot_stays (pt : TimedPoint) (x : ActionSlot) (s : State) : Stays who a s (s.setSlot pt x) := (Move.slots a s _).one

theorem retarget_stays (pt : TimedPoint) (s : State) : Stays who a s (retarget pt s) := by
  unfold retarget
  dsimp only
  split
  · exact setSlot_stays ..
  · split
    · exact (setSlot_stays ..).before (addDefect_stays (by decide) ..)
    · exact setSlot_stays ..

theorem armSlot_stays (pt : TimedPoint) (c : Serial) (s : State) : Stays who a s (armSlot pt c s) :=
  (setSlot_stays ..).before (retarget_stays ..)

theorem armWaiting_stays (c : Serial) (s : State) : Stays who a s (armWaiting c s) := by
  refine stays_foldl (fun s pt => ?_) _ s
  split
  · exact armSlot_stays ..
  · exact .refl a s

theorem armAtHoming_stays (c : Serial) (s : State) : Stays who a s (armAtHoming c s) :=
  stays_foldl (fun s _ => armSlot_stays _ _ s) _ s

theorem recomputeAll_stays (s : State) : Stays who a s (recomputeAll s) := by
  refine stays_foldl (fun s pt => ?_) _ s
  unfold recompute
  split
  · exact retarget_stays ..
  · exact .refl a s

theorem markPassed_stays (x : Nat) (s : State) : Stays who .between s (markPassed x s) :=
  .cons (.slots .between s (mapVector (fun y => y.afterMove s x) s.sched.slots)) (Move.passed _ _).one

/-! ### The profile store (R33, R34) -/

theorem retireCheck_stays (s : State) : Stays who a s (retireCheck s) := by
  obtain h | ⟨i, hi, -, h⟩ := retireCheck_cases s <;> rw [h]
  · exact .refl a s
  · exact .cons (.retire a hi) (Move.post ..).one

theorem changeoverAt_stays (n : Serial) (s : State) : Stays who a s (changeoverAt n s) := by
  unfold changeoverAt
  split
  · exact .refl a s
  · next arm ha =>
    split
    · exact .cons (.changeover a ha) (.cons (.post a _ _) (retireCheck_stays _))
    · exact .refl a s

/-! ### The batch counter (chapter 7) -/

theorem closeBatch_stays (reason : CloseReason) (hq : s.batch.queue.length < 8) : Stays who a s (closeBatch reason s) :=
  .cons (.close a reason hq) (.cons (.post a _ _) (retireCheck_stays _))

theorem holdBatch_stays (why : ClosePending) (s : State) : Stays who a s (holdBatch why s) := by
  unfold holdBatch
  dsimp only
  split
  · exact .refl a s
  · exact .cons (.batch a (by rfl)) (Move.post ..).one

theorem armKick_stays (c : Serial) (s : State) : Stays who a s (armKick c s) := by
  unfold armKick
  split
  case isTrue hr =>
    dsimp only
    split
    · exact (armSlot_stays ..).before ((setSlot_stays ..).before (Move.pulse a .kick (by simpa using hr)).one)
    · exact armSlot_stays ..
  case isFalse => exact .refl a s

theorem attemptClose_stays (why : ClosePending) (c : Serial) (s : State) : Stays who a s (attemptClose why c s) := by
  unfold attemptClose
  split
  case isTrue hq => exact (closeBatch_stays _ hq).before (armKick_stays ..)
  case isFalse => exact holdBatch_stays ..

theorem attemptPending_stays (c : Serial) (s : State) : Stays who a s (attemptPending c s) := by
  unfold attemptPending
  split
  · exact .refl a s
  · exact attemptClose_stays ..

theorem attemptOrderChange_stays (slot : Fin 4) (c : Serial) (s : State) : Stays who a s (attemptOrderChange slot c s) := by
  unfold attemptOrderChange
  split
  · exact attemptClose_stays ..
  · exact .refl a s

theorem handCause_stays (c : HaltCause) (s : State) : Stays who a s (handCause c s) := by
  obtain ⟨-, h⟩ | ⟨-, h⟩ := handCause_cases c s <;> rw [h]
  · exact .refl a s
  · exact .cons (.causes a _ _) (Move.post ..).one

theorem checkOverrun_stays (s : State) : Stays who a s (checkOverrun s) := by
  unfold checkOverrun
  split
  · exact handCause_stays ..
  · exact .refl a s

/-- The blank of serial `n`, where there is one, is PASSED. -/
def State.PassedAt (s : State) (n : Serial) : Prop := ∀ b, s.track.find n = some b → b.outcome = .passed

theorem countStray_stays {n : Serial} (hp : s.PassedAt n) : Stays who a s (countStray n s) :=
  .cons (.record a (n := n) (fun b => serial_setCounted b .stray) fun b hb => stepsTo_setCounted (hp b hb) (.inr rfl))
    (Move.batch a (by rfl)).one

theorem countGoodBlank_stays {n : Serial} (hp : s.PassedAt n) (slot : Fin 4) (c : Serial) :
    Stays who a s (countGoodBlank n slot c s) := by
  have counted : Stays who a s ((s.updateBlank n fun b => b.setCounted .good).setOpenBatch
      { s.openBatch with body := s.openBatch.body.countGood n (adoptedOrder s slot) }) :=
    .cons (.record a (n := n) (fun b => serial_setCounted b .good) fun b hb => stepsTo_setCounted (hp b hb) (.inl (by rfl)))
      (Move.batch a (by rfl)).one
  unfold countGoodBlank
  dsimp only
  split
  · exact counted.before (attemptClose_stays ..)
  · exact counted

/-- No close attempt changes a gate outcome: where it arms the kick, TIMING may join the kick's blank (R61, R78). -/
theorem passedAt_addDefect {n : Serial} (hp : s.PassedAt n) (m : Serial) (d : Defect) : (addDefect m d s).PassedAt n := by
  intro b hb
  unfold addDefect at hb
  rw [find_updateBlank s m n (fun b => { b with defects := b.defects.insert d }) fun _ => rfl] at hb
  obtain ⟨c, hc, rfl⟩ := Option.map_eq_some_iff.mp hb
  have := hp c hc
  split <;> exact this

theorem passedAt_congr {s t : State} {n : Serial} (h : t.track = s.track) (hp : s.PassedAt n) : t.PassedAt n := by
  unfold State.PassedAt
  rwa [h]

theorem passedAt_retarget {n : Serial} (hp : s.PassedAt n) (pt : TimedPoint) : (retarget pt s).PassedAt n := by
  unfold retarget
  dsimp only
  split
  · exact passedAt_congr rfl hp
  · split
    · exact passedAt_addDefect (passedAt_congr rfl hp) _ _
    · exact passedAt_congr rfl hp

theorem passedAt_armKick {n : Serial} (hp : s.PassedAt n) (c : Serial) : (armKick c s).PassedAt n := by
  have armed : (armSlot .kick c s).PassedAt n := passedAt_retarget (s := s.setSlot .kick _) (passedAt_congr rfl hp) _
  unfold armKick
  split
  · dsimp only
    split
    · exact passedAt_congr (by simp) armed
    · exact armed
  · exact hp

theorem passedAt_attemptClose {n : Serial} (hp : s.PassedAt n) (why : ClosePending) (c : Serial) :
    (attemptClose why c s).PassedAt n := by
  unfold attemptClose
  split
  · exact passedAt_armKick (passedAt_congr (by simp) hp) c
  · exact passedAt_congr (by simp) hp

theorem passedAt_attempts {n : Serial} (hp : s.PassedAt n) (slot : Fin 4) (c : Serial) :
    (attemptOrderChange slot c (attemptPending c s)).PassedAt n := by
  have pending : (attemptPending c s).PassedAt n := by
    unfold attemptPending
    split
    · exact hp
    · exact passedAt_attemptClose hp _ _
  unfold attemptOrderChange
  split
  · exact passedAt_attemptClose pending _ _
  · exact pending

theorem countPassed_stays {n : Serial} (hp : s.PassedAt n) (slot : Fin 4) (c : Serial) :
    Stays who a s (countPassed n slot c s) := by
  have hpassed := passedAt_attempts hp slot c
  have attempts : Stays who a s (attemptOrderChange slot c (attemptPending c s)) :=
    (attemptPending_stays ..).before (attemptOrderChange_stays ..)
  unfold countPassed
  dsimp only
  split
  · exact attempts.before ((countStray_stays hpassed).before (checkOverrun_stays _))
  · exact attempts.before ((countGoodBlank_stays hpassed ..).before (checkOverrun_stays _))

theorem countBlank_stays (n c : Serial) (s : State) : Stays who a s (countBlank n c s) := by
  unfold countBlank
  split
  · exact .refl a s
  · next b hb =>
    split
    · next hp => exact countPassed_stays (fun x hx => by rw [hb] at hx; cases hx; exact hp) ..
    · exact .refl a s

/-! ### The register monitor (chapter 5); only in LIVE -/

theorem setChannel_stays (hr : s.run.runState = .live) (ch : RegChannel) {x : Channel}
    (hx : x.value = (s.channel ch).value ∨ x.value.natAbs ≤ s.config.register.maxOf ch) : Stays who a s (s.setChannel ch x) := by
  refine (Move.monitor a (x := s.reg.set ch x) hr fun c => ?_).one
  cases ch <;> cases c
  · exact hx
  · exact .inl rfl
  · exact .inl rfl
  · exact hx

/-- The waiting judgement and the knife list are no part of a channel. -/
theorem monitor_stays (hr : s.run.runState = .live) {x : RegisterMonitor} (hx : ∀ ch, x.get ch = s.channel ch) :
    Stays who a s { s with reg := x } :=
  (Move.monitor a hr fun ch => .inl (by rw [hx])).one

theorem captureEdge_stays (ch : RegChannel) (s : State) : Stays who a s (captureEdge ch s) := by
  unfold captureEdge
  split
  · exact .refl a s
  · split
    · next h => exact setChannel_stays h.1 ch (.inl (by rfl))
    · exact .refl a s

theorem openWindow_stays (hr : s.run.runState = .live) (ch : RegChannel) (n c : Serial) : Stays who a s (openWindow ch n c s) := by
  unfold openWindow
  split
  · exact .refl a s
  · exact setChannel_stays hr ch (.inl (by rfl))

theorem countBad_stays (hr : s.run.runState = .live) (ch : RegChannel) (n : Serial) : Stays who a s (countBad ch n s) := by
  unfold countBad
  dsimp only
  split
  · have lost : Stays who a s (postRegister ch n (s.setChannel ch
        { s.channel ch with bad := countUpTo 255 (s.channel ch).bad, good := 0, state := .lost })) :=
      (setChannel_stays (by exact hr) ch (.inl (by rfl))).before (Move.post ..).one
    split
    · exact lost.before (handCause_stays ..)
    · exact lost
  · exact setChannel_stays hr ch (.inl (by rfl))

theorem countGood_stays (hr : s.run.runState = .live) (ch : RegChannel) (n : Serial) : Stays who a s (countGood ch n s) := by
  unfold countGood
  dsimp only
  split
  · exact (setChannel_stays (by exact hr) ch (.inl (by rfl))).before (Move.post ..).one
  · exact setChannel_stays hr ch (.inl (by rfl))

theorem serial_setError_eq (b : Blank) (ch : RegChannel) (e : Int) : (b.setError ch e).serial = b.serial := by
  have h := (stepsTo_setError b ch e).1
  exact h.1

theorem judgeCapture_stays (hr : s.run.runState = .live) (ch : RegChannel) (w : WindowRecord) (angle : Nat) :
    Stays who a s (judgeCapture ch w angle s) := by
  have written : Stays who a s (s.updateBlank w.serial fun b => b.setError ch ((angle : Int) - (w.e : Int))) :=
    (Move.record a (fun b => serial_setError_eq b ch _) fun b _ => stepsTo_setError b ch _).one
  have integrated := written.before (setChannel_stays (a := a)
    (s := s.updateBlank w.serial fun b => b.setError ch ((angle : Int) - (w.e : Int))) hr ch
    (x := { integrate (s.config.register.maxOf ch) ((angle : Int) - (w.e : Int)) (s.channel ch) with
      last := .error w.serial ((angle : Int) - (w.e : Int)) }) (.inr (clampTo_natAbs_le _ _)))
  unfold judgeCapture
  dsimp only
  split
  · exact integrated.before ((addDefect_stays (by cases ch <;> decide) ..).before (countBad_stays (by exact hr) ..))
  · exact integrated.before (countGood_stays (by exact hr) ..)

theorem judgeMissing_stays (hr : s.run.runState = .live) (ch : RegChannel) (w : WindowRecord) :
    Stays who a s (judgeMissing ch w s) :=
  (addDefect_stays (by cases ch <;> decide) ..).before
    ((setChannel_stays (s := addDefect w.serial (missingDefect ch) s) hr ch (.inl (by rfl))).before (countBad_stays (by exact hr) ..))

theorem judge_stays (hr : s.run.runState = .live) (ch : RegChannel) (w : WindowRecord) : Stays who a s (judge ch w s) := by
  unfold judge
  split
  · exact judgeCapture_stays hr ..
  · exact judgeMissing_stays hr ..

theorem judgePrint_stays (hr : s.run.runState = .live) (w : WindowRecord) : Stays who a s (judgePrint w s) := by
  unfold judgePrint
  split
  · exact .refl a s
  · split
    · exact judge_stays hr ..
    · exact .refl a s

theorem resolveWaiting_stays (hr : s.run.runState = .live) (n : Serial) : Stays who a s (resolveWaiting n s) := by
  unfold resolveWaiting
  split
  · exact .refl a s
  · split
    · exact (monitor_stays hr fun ch => by cases ch <;> rfl).before (judgePrint_stays (by exact hr) _)
    · exact .refl a s

theorem resolvePrint_stays (hr : s.run.runState = .live) (w : WindowRecord) : Stays who a s (resolvePrint w s) := by
  unfold resolvePrint
  split
  · exact .refl a s
  · split
    · exact monitor_stays hr fun ch => by cases ch <;> rfl
    · exact judgePrint_stays hr _

theorem handKnife_stays (hr : s.run.runState = .live) (n : Serial) (o : KnifeOutcome) : Stays who a s (handKnife n o s) :=
  monitor_stays hr fun ch => by cases ch <;> rfl

theorem resolvePatch_stays (hr : s.run.runState = .live) (w : WindowRecord) : Stays who a s (resolvePatch w s) := by
  have dropped : Stays who a s (dropKnife w.serial s) := monitor_stays hr fun ch => by cases ch <;> rfl
  unfold resolvePatch
  split
  · exact dropped.before (judge_stays (by exact hr) ..)
  · exact dropped

theorem closeWindow_stays (hr : s.run.runState = .live) (ch : RegChannel) : Stays who a s (closeWindow ch s) := by
  unfold closeWindow
  split
  · exact .refl a s
  · dsimp only
    split
    · exact (setChannel_stays (by exact hr) .print (.inl (by rfl))).before (resolvePrint_stays (by exact hr) _)
    · exact (setChannel_stays (by exact hr) .patch (.inl (by rfl))).before (resolvePatch_stays (by exact hr) _)

/-! ### The gate decision (R114 to R119) -/

/-- What the decision writes in the record of an undecided PRESENT blank (R115 to R119). -/
def Blank.decided (b : Blank) (d : DefectSet) (o : GateOutcome) : Blank :=
  let settled := { b with defects := d }.setOutcome o
  if o = .diverted then settled.setCounted .reject else settled

theorem serial_decided (b : Blank) (d : DefectSet) (o : GateOutcome) : (b.decided d o).serial = b.serial := by
  unfold Blank.decided
  dsimp only
  split
  · rw [serial_setCounted, serial_setOutcome]
  · rw [serial_setOutcome]

theorem recordOutcome_eq (n : Serial) (d : DefectSet) (o : GateOutcome) (s : State) :
    recordOutcome n d o s
      = if o = .diverted then countReject (s.updateBlank n fun b => b.decided d o) else s.updateBlank n fun b => b.decided d o := by
  unfold recordOutcome
  dsimp only
  by_cases h : o = .diverted
  · have hmerge := updateBlank_updateBlank s n (fun b => ({ b with defects := d } : Blank).setOutcome o)
      (fun b => b.setCounted .reject) fun b => serial_setOutcome _ o
    rw [if_pos h, if_pos h, hmerge]
    simp only [Blank.decided, if_pos h]
  · rw [if_neg h, if_neg h]
    simp only [Blank.decided, if_neg h]

theorem has_settledDefects (h : Header) (b : Blank) (batch : Batches) (e : Defect) (hb : b.defects.has e = true) :
    (settledDefects h b batch).has e = true := by
  cases e <;> simp_all [settledDefects, DefectSet.has]

theorem outcomeOf_of_holdDivert (h : Header) {d : DefectSet} (hd : d.holdDivert = true) : outcomeOf h d = .diverted := by
  simp [outcomeOf, diverts, hd]

/-- A lawful blank that the gate has not decided is not counted (R119). -/
theorem not_counted_of_pending {b : Blank} (hb : b.outcome = .pending) (hl : b.CountedOnce) : b.counted = .no := by
  obtain ⟨hreject, hpassed⟩ := hl
  cases hc : b.counted <;> simp_all

theorem stepsTo_decided {b : Blank} (hb : b.outcome = .pending) (h : Header) (batch : Batches) :
    b.StepsTo (b.decided (settledDefects h b batch) (outcomeOf h (settledDefects h b batch))) := by
  have hdecided : { b with defects := settledDefects h b batch }.setOutcome (outcomeOf h (settledDefects h b batch))
      = { b with defects := settledDefects h b batch, outcome := outcomeOf h (settledDefects h b batch) } := if_pos hb
  unfold Blank.decided
  rw [hdecided]
  dsimp only
  split
  case isTrue hdiv =>
    unfold Blank.setCounted
    split
    case isTrue hno =>
      refine ⟨⟨rfl, rfl, fun _ => rfl, has_settledDefects h b batch, fun _ h => h, fun _ h => h, id, List.prefix_refl _, absurd hb,
        absurd hno⟩, ?_⟩
      rintro ⟨-, -, hone⟩
      exact ⟨⟨by simp [hdiv], by simp⟩, fun _ => hdiv, hone⟩
    case isFalse hno =>
      refine ⟨⟨rfl, rfl, fun _ => rfl, has_settledDefects h b batch, fun _ h => h, fun _ h => h, id, List.prefix_refl _, absurd hb,
        fun _ => rfl⟩, fun hl => absurd (not_counted_of_pending hb hl.1) hno⟩
  case isFalse hdiv =>
    have hout : outcomeOf h (settledDefects h b batch) = .passed := by
      unfold outcomeOf at hdiv ⊢
      split <;> simp_all
    refine ⟨⟨rfl, rfl, fun _ => rfl, has_settledDefects h b batch, fun _ h => h, fun _ h => h, id, List.prefix_refl _, absurd hb,
      fun _ => rfl⟩, ?_⟩
    rintro ⟨hcount, -, hone⟩
    refine ⟨⟨?_, fun _ => hout⟩, fun hd => absurd (outcomeOf_of_holdDivert h hd) hdiv, hone⟩
    simp [not_counted_of_pending hb hcount, hout]

theorem stepsTo_skipped {b : Blank} (hb : b.outcome = .pending) : b.StepsTo (b.setOutcome .skipped) := by
  unfold Blank.setOutcome
  rw [if_pos hb]
  refine ⟨⟨rfl, rfl, fun _ => rfl, fun _ h => h, fun _ h => h, fun _ h => h, id, List.prefix_refl _, absurd hb, fun _ => rfl⟩, ?_⟩
  rintro ⟨hcount, hdiverts, hone⟩
  refine ⟨?_, fun hd => ?_, hone⟩
  · simp [Blank.CountedOnce, not_counted_of_pending hb hcount]
  · have := hdiverts hd
    rw [hb] at this
    cases this

theorem recordOutcome_stays {n : Serial} {b : Blank} (hf : s.track.find n = some b) (hb : b.outcome = .pending) (h : Header) :
    Stays who a s (recordOutcome n (settledDefects h b s.batch) (outcomeOf h (settledDefects h b s.batch)) s) := by
  have recorded : Stays who a s
      (s.updateBlank n fun x => x.decided (settledDefects h b s.batch) (outcomeOf h (settledDefects h b s.batch))) :=
    (Move.record a (fun x => serial_decided x _ _)
      fun x hx => by rw [hf] at hx; cases hx; exact stepsTo_decided hb h s.batch).one
  rw [recordOutcome_eq]
  split
  · exact recorded.before (Move.batch a (by rfl)).one
  · exact recorded

theorem decideGate_stays (hr : s.run.runState = .live) (n : Serial) : Stays who a s (decideGate n s) := by
  unfold decideGate
  split
  · exact .refl a s
  · next b hf =>
    split
    · next hb =>
      split
      · refine .cons (.record a (fun x => serial_setOutcome x .skipped) fun x hx => ?_) (Move.gate a false (s := s.updateBlank n _) hr).one
        rw [hf] at hx
        cases hx
        exact stepsTo_skipped hb
      · exact (recordOutcome_stays hf hb _).before (Move.gate a _ (by simpa using hr)).one
      · exact .refl a s
    · exact .refl a s

/-! ### The points (R70 to R81) -/

theorem fireWebSample_stays (hr : s.run.runState = .live) (n : Serial) : Stays who a s (fireWebSample n s) := by
  unfold fireWebSample
  split
  · exact .refl a s
  · split
    · exact .cons (.record a (fun b => serial_setPresence b _) fun b _ => stepsTo_setPresence b _)
        (resolveWaiting_stays (s := s.updateBlank n _) hr n)
    · exact .refl a s

theorem fireKnife_stays (hr : s.run.runState = .live) (n : Serial) : Stays who a s (fireKnife n s) := by
  unfold fireKnife
  split
  · exact .refl a s
  · split
    · exact .cons (.pulse a .patch hr) (handKnife_stays (by simpa using hr) ..)
    · split
      · exact (addDefect_stays (by decide) ..).before (handKnife_stays (by exact hr) ..)
      · exact handKnife_stays hr ..

theorem fireValveOn_stays (ha : a.Fires) (v k : Fin 4) (x : ActionSlot) (s : State) : Stays who a s (fireValveOn v k x s) := by
  unfold fireValveOn
  split
  · exact .refl _ s
  · split
    · next hf =>
      refine (Move.segment ha v fun _ => .inr ?_).one
      simp only [valveOnFires, Bool.and_eq_true, beq_iff_eq] at hf
      exact hf.1.1
    · split
      · exact addDefect_stays (by decide) ..
      · exact .refl _ s

theorem fireValveOff_stays (ha : a.Fires) (v k : Fin 4) (c : Serial) (s : State) : Stays who a s (fireValveOff v k c s) :=
  (Move.segment ha v fun hx => .inl fun h => hx (by rw [h]; rfl)).one

theorem fireCamera_stays (hr : s.run.runState = .live) (n : Serial) : Stays who a s (fireCamera n s) := by
  unfold fireCamera
  split
  · exact .refl a s
  · split
    · exact .refl a s
    · split
      · exact .cons (.record a (n := n) (f := fun b => { b with cameraDone := true }) (fun _ => rfl) fun b _ => stepsTo_cameraDone b)
          (.cons (.pulse a .camera (s := s.updateBlank n _) hr) (Move.post ..).one)
      · exact .refl a s

/-- A point other than a valve's (R57). -/
def NoValve (pt : TimedPoint) : Prop := ∀ v k : Fin 4, pt ≠ .valveOn v k ∧ pt ≠ .valveOff v k

/-- A valve's segment opens or closes only within an event, so that the valve outputs follow (R82). -/
def FiresIn (a : Phase) (pt : TimedPoint) : Prop := a.Fires ∨ NoValve pt

theorem fireAct_stays {pt : TimedPoint} (hv : FiresIn a pt) (hr : s.run.runState = .live) (x : ActionSlot) :
    Stays who a s (fireAct pt x s) := by
  cases pt with
  | webSample => exact fireWebSample_stays hr _
  | printOpen => exact openWindow_stays hr ..
  | printClose => exact closeWindow_stays hr _
  | patchKnife => exact fireKnife_stays hr _
  | patchOpen => exact openWindow_stays hr ..
  | patchClose => exact closeWindow_stays hr _
  | valveOn v k =>
    obtain ha | hv := hv
    · exact fireValveOn_stays ha v k x s
    · exact absurd rfl (hv v k).1
  | valveOff v k =>
    obtain ha | hv := hv
    · exact fireValveOff_stays ha v k x.cycle s
    · exact absurd rfl (hv v k).2
  | camera => exact fireCamera_stays hr _
  | gate => exact decideGate_stays hr _
  | count => exact countBlank_stays ..
  | kick => exact (Move.pulse a .kick hr).one

theorem advanceSlot_stays (pt : TimedPoint) (x : ActionSlot) (s : State) : Stays who a s (advanceSlot pt x s) := by
  unfold advanceSlot
  split
  · exact setSlot_stays ..
  · exact setSlot_stays ..
  · exact setSlot_stays ..
  · exact setSlot_stays ..
  · exact armSlot_stays ..

theorem live_of_due {pt : TimedPoint} (h : s.due pt = true) : s.run.runState = .live := by
  unfold State.due at h
  simp_all

theorem fireOnce_stays {pt : TimedPoint} (hv : FiresIn a pt) (hd : s.due pt = true) : Stays who a s (fireOnce pt s) := by
  unfold fireOnce
  dsimp only
  split
  · exact advanceSlot_stays ..
  · exact (fireAct_stays hv (live_of_due hd) _).before (advanceSlot_stays ..)

/-! ### Creation, flush and splices (chapter 3) -/

theorem removePast_addRecord_moves (slot : Fin 4) (hh : s.shaft.homed = true) :
    Moves who 1 a s a (removePast s.track.nextSerial (addRecord slot s)) := by
  unfold removePast
  dsimp only
  split
  · next hnone =>
    have hkept : s.withCreated slot = addRecord slot s := by
      have hall : (addRecord slot s).track.records.filter
          (fun b => !(b.serial == s.track.nextSerial - BitVec.ofNat 32 (s.config.stations.delivery + 1)))
          = (addRecord slot s).track.records := by
        refine List.filter_eq_self.mpr fun b hb => ?_
        simpa using List.find?_eq_none.mp hnone b hb
      unfold State.withCreated
      dsimp only
      rw [hall]
    rw [← hkept]
    exact .create slot hh (.none _ _ _)
  · exact .create slot hh (retireCheck_stays _)

theorem markSpliceSeen_stays (s : State) : Stays who a s (markSpliceSeen s) := (Move.spliceSeen a s).one

/-- A creation, with the changeover it meets, the removal and the arming of the waiting slots (R43). -/
theorem createBlank_moves (hh : s.shaft.homed = true) : Moves who 1 a s a (createBlank s) := by
  have created : Moves who 1 a s a (armWaiting s.track.nextSerial (removePast s.track.nextSerial
      (addRecord ((changeoverAt s.track.nextSerial s).profiles.active.getD 0) (changeoverAt s.track.nextSerial s)))) := by
    have hn : (changeoverAt s.track.nextSerial s).track.nextSerial = s.track.nextSerial := by simp
    have hc := removePast_addRecord_moves (who := who) (a := a) (s := changeoverAt s.track.nextSerial s)
      ((changeoverAt s.track.nextSerial s).profiles.active.getD 0) (by simpa using hh)
    rw [hn] at hc
    exact (changeoverAt_stays _ s).before (hc.after (armWaiting_stays ..))
  unfold createBlank
  dsimp only
  split
  · exact created.after (markSpliceSeen_stays _)
  · exact created

theorem flushRecords_stays (hr : s.run.runState ≠ .live) : Stays who a s (flushRecords s) := by
  unfold flushRecords
  split
  · exact .cons (.flush hr) (.cons (.post a _ _) (retireCheck_stays _))
  · exact .refl a s

theorem spliceEdge_stays (s : State) : Stays who .between s (spliceEdge s) := by
  unfold spliceEdge
  split
  · unfold spliceNewest
    split
    · exact .refl _ s
    · split
      · exact .refl _ s
      · split
        · exact .refl _ s
        · exact (addDefect_stays (by decide) ..).before (markSpliceSeen_stays _)
  · next hr => exact (Move.splicePending hr).one
  · exact .refl _ s

end Operations

/-! ## Events: what one movement takes (R70, R82) -/

theorem homed_of_creationNext {s : State} (h : s.CreationNext) : s.shaft.homed = true := h.1

/-- One thing that a movement takes is the creation, or the use of a free value and a firing. -/
theorem takesNext_moves {who : Origin} {s t : State} (h : s.TakesNext t) : Moves who 1 .within s .within t := by
  obtain ⟨hc, rfl⟩ | ⟨pt, n, ⟨hd, -⟩, rfl⟩ := h
  · exact createBlank_moves (homed_of_creationNext hc)
  · have hfree : Move who .within s .within { s with freeCount := n } := .aside ..
    exact (Moves.cons hfree (fireOnce_stays (.inl (.inl rfl)) (by exact hd))).le (by omega)

theorem takes_moves {who : Origin} {n : Nat} {s t : State} (h : State.Takes n s t) : Moves who n .within s .within t := by
  induction n generalizing s with
  | zero => cases h; exact .none _ _ _
  | succ n ih =>
    obtain ⟨u, hu, ht⟩ := h
    exact ((takesNext_moves hu).append (ih ht)).le (by omega)

/-- All that one event takes, with the valve outputs after it: 256 things at most. -/
theorem settleEvent_moves_within (who : Origin) (s : State) : Moves who 256 .within s .between (settleEvent s) := by
  obtain ⟨n, hn, ht, -⟩ := settle_takes settleLimit s
  exact ((takes_moves ht).after (Move.leave _).one).le hn

section Events

variable {who : Origin} {s : State}

theorem settleEvent_moves (who : Origin) (s : State) : Moves who 256 .between s .between (settleEvent s) :=
  .cons (.enter s) (settleEvent_moves_within who s)

theorem firePoint_moves_within (who : Origin) (pt : TimedPoint) (s : State) : Moves who 256 .within s .within (firePoint pt s) := by
  unfold firePoint
  split
  case isTrue hd =>
    dsimp only
    split
    · exact (fireOnce_stays (.inl (.inl rfl)) hd).before ((settleEvent_moves_within who _).after (Move.enter _).one)
    · exact (fireOnce_stays (.inl (.inl rfl)) hd).le (by omega)
  case isFalse => exact .none _ _ _

/-- A valve's point is fired with the valve outputs after it (R82). -/
theorem setValveOutputs_firePoint_moves (who : Origin) (pt : TimedPoint) (s : State) :
    Moves who 256 .between s .between (setValveOutputs (firePoint pt s)) :=
  .cons (.enter s) ((firePoint_moves_within who pt s).after (Move.leave _).one)

theorem setValveOutputs_stays (s : State) : Stays who .between s (setValveOutputs s) := .cons (.enter s) (Move.leave s).one

theorem fireFilled_moves {pt : TimedPoint} (hv : NoValve pt) (s : State) : Moves who 256 .between s .between (fireFilled pt s) := by
  unfold fireFilled
  split
  · exact .none _ _ _
  · unfold firePoint
    split
    case isTrue hd =>
      dsimp only
      split
      · exact (fireOnce_stays (.inr hv) hd).before (settleEvent_moves who _)
      · exact (fireOnce_stays (.inr hv) hd).le (by omega)
    case isFalse => exact .none _ _ _

/-- A valve's command fires its slot where it is not void, and sets the valve outputs. -/
theorem setValveOutputs_fireFilled_moves (who : Origin) (pt : TimedPoint) (s : State) :
    Moves who 256 .between s .between (setValveOutputs (fireFilled pt s)) := by
  unfold fireFilled
  split
  · exact (setValveOutputs_stays s).le (by omega)
  · exact setValveOutputs_firePoint_moves who pt s

/-! ## Events of the shaft (chapter 1) -/

theorem encoderFault_stays (kind : FaultKind) (detail : Int) (hh : s.shaft.homed = true) :
    Stays who .between s (encoderFault kind detail s) := by
  refine .cons (.fault kind detail hh) ?_
  unfold encoderFault
  dsimp only
  split
  · exact (Move.post ..).one
  · exact .cons (.post ..) (Move.post ..).one

theorem homed_of_indexIsMissing (h : s.indexIsMissing = true) : s.shaft.homed = true := by
  unfold State.indexIsMissing at h
  simp_all

theorem countForward_moves (s : State) : Moves who 256 .between s .between (countForward s) := by
  have hmoved : Move who .between s .between { s with shaft :=
      { s.shaft with position := forwardPosition s, lastDir := .forward, msChange := s.shaft.msChange + 1 } } :=
    .shaft _ rfl .inl
  unfold countForward
  dsimp only
  split
  case isTrue hm => exact .cons hmoved ((encoderFault_stays _ _ (homed_of_indexIsMissing hm)).le (by omega))
  case isFalse => exact .cons hmoved ((markPassed_stays ..).before (settleEvent_moves who _))

theorem quadratureError_stays (s : State) : Stays who .between s (quadratureError s) := by
  unfold quadratureError
  split
  case isTrue hh => exact encoderFault_stays _ _ hh
  case isFalse => exact .refl _ s

theorem sampleEncoder_moves (a b : Bool) (s : State) : Moves who 256 .between s .between (sampleEncoder a b s) := by
  have hq : Move who .between s .between (s.setQuadrature a b) := .shaft _ rfl .inl
  unfold sampleEncoder
  split
  · exact .none _ _ _
  · exact .cons hq (countForward_moves _)
  · have hb : Move who .between (s.setQuadrature a b) .between (countReverse (s.setQuadrature a b)) := .shaft _ rfl .inl
    exact .cons hq hb.one
  · exact .cons hq ((quadratureError_stays _).le (by omega))

theorem checkIndex_moves (hh : s.shaft.homed = true) : Moves who 256 .between s .between (checkIndex s) := by
  unfold checkIndex correctPosition
  dsimp only
  split
  · have hi : Move who .between s .between { s with shaft := { s.shaft with lastIndex := s.shaft.position } } := .shaft _ rfl .inl
    exact hi.one
  · split
    · have hc : Move who .between s .between { s with shaft :=
          { s.shaft with
            position := offsetPosition s.pitch s.shaft.position (-indexSlip s.pitch (s.shaft.position % s.pitch)),
            lastIndex := offsetPosition s.pitch s.shaft.position (-indexSlip s.pitch (s.shaft.position % s.pitch)),
            slips := countUpTo 65535 s.shaft.slips } } := .shaft _ rfl .inl
      split
      · exact .cons hc ((markPassed_stays ..).before (settleEvent_moves who _))
      · exact hc.one
    · exact (encoderFault_stays _ _ hh).le (by omega)

theorem serials_retarget (pt : TimedPoint) (s : State) :
    (retarget pt s).track.records.map Blank.serial = s.track.records.map Blank.serial := by
  unfold retarget
  dsimp only
  split
  · rfl
  · split
    · simp only [addDefect, updateBlank_records, setSlot_track, List.map_map]
      refine List.map_congr_left fun b _ => ?_
      simp only [Function.comp_apply]
      split <;> rfl
    · rfl

theorem serials_armWaiting (c : Serial) (s : State) :
    (armWaiting c s).track.records.map Blank.serial = s.track.records.map Blank.serial := by
  refine foldl_keeps (fun u => u.track.records.map Blank.serial) _ (fun u pt => ?_) _ s
  split
  · exact serials_retarget ..
  · rfl

/-- The part after a creation, before a SPLICE trigger is shown it (R43). -/
def State.createdAt (s : State) : State :=
  removePast s.track.nextSerial
    (addRecord ((changeoverAt s.track.nextSerial s).profiles.active.getD 0) (changeoverAt s.track.nextSerial s))

theorem createBlank_track (s : State) : (createBlank s).track = (armWaiting s.track.nextSerial s.createdAt).track := by
  have hseen (u : State) : (markSpliceSeen u).track = u.track := by simp
  unfold createBlank
  dsimp only
  split
  · exact hseen _
  · rfl

/-- A blank that is created is held, where the delivery stands within its range (R43, R45). -/
theorem records_createBlank (s : State) (hd : s.config.stations.delivery ≤ 31) : (createBlank s).track.records ≠ [] := by
  have hne : s.track.nextSerial ≠ s.track.nextSerial - BitVec.ofNat 32 (s.config.stations.delivery + 1) := by
    intro h
    bv_omega
  have held : s.track.nextSerial ∈ s.createdAt.track.records.map Blank.serial := by
    refine List.mem_map.mpr ⟨Blank.created s.track.nextSerial ((changeoverAt s.track.nextSerial s).profiles.active.getD 0)
      s.track.splicePending, ?_, rfl⟩
    unfold State.createdAt removePast
    dsimp only
    split
    · simp [addRecord]
    · simpa [addRecord, Blank.created] using .inr hne
  intro h
  rw [createBlank_track] at h
  rw [← serials_armWaiting s.track.nextSerial, h] at held
  cases held

/-- A homing: the flush, blank c0, LIVE with its notice, the arming, and what then stands passed (R5, R44, R65, R164). -/
theorem homePart_moves (hh : s.shaft.homed = false) (hr : s.run.runState = .homing) :
    Moves who 257 .between s .between (homePart s) := by
  have flushed : Stays who .arriving (setHomed s.track.nextSerial s) (flushRecords (setHomed s.track.nextSerial s)) :=
    flushRecords_stays (by simp [hr])
  have created := createBlank_moves (who := who) (a := .arriving) (s := flushRecords (setHomed s.track.nextSerial s))
    (by simp [setHomed])
  have live := Move.live (who := who) (s := createBlank (flushRecords (setHomed s.track.nextSerial s)))
    fun hd => records_createBlank _ (by simpa using hd)
  exact .cons (.home _ hh hr) (flushed.before (created.append (.cons live
    (.cons (.post ..) ((armAtHoming_stays ..).before (settleEvent_moves_within who _))))))

theorem takeIndexEdge_moves (s : State) : Moves who 257 .between s .between (takeIndexEdge s) := by
  unfold takeIndexEdge
  split
  case isTrue hh => exact (checkIndex_moves hh).le (by omega)
  case isFalse hh =>
    split
    case isTrue hr => exact homePart_moves (by simpa using hh) hr.1
    case isFalse => exact .none _ _ _

/-- A tick that leaves the shaft counter `x`, and the scheduler's part of it (R13, R68). -/
theorem scheduleTick_moves {x : Shaft} (hh : x.homed = s.shaft.homed) :
    Moves who 256 .between s .between (scheduleTick (restReached s.shaft.motion x.motion) { s with shaft := x }) := by
  unfold scheduleTick
  split
  case isTrue hr =>
    refine .cons (.enter s) ?_
    split
    case isTrue =>
      have hm : Move who .within (closeSegments s) .within { closeSegments s with shaft := x } :=
        .shaft _ hh fun _ => .inr (.inr fun v => by simp [closeSegments])
      exact .cons (.closeAll s) (.cons hm ((recomputeAll_stays _).before (settleEvent_moves_within who _)))
    case isFalse hrest =>
      have hm : Move who .within s .within { s with shaft := x } := .shaft _ hh fun hx => .inl (by
        cases h : s.shaft.motion with
        | atRest => rfl
        | moving => exact absurd (by simp [restReached, h, hx]) hrest)
      exact .cons hm ((recomputeAll_stays _).before (settleEvent_moves_within who _))
  case isFalse hr =>
    have hm : Move who .between s .between { s with shaft := x } := .shaft _ hh fun _ => .inr (.inl hr)
    exact hm.one

theorem tickEvent_moves (s : State) : Moves who 256 .between s .between (tickEvent s) := scheduleTick_moves rfl

theorem restDwellExpires_moves (h : s.restDwellReached = true) : Moves who 256 .between s .between (restDwellExpires s) := by
  have hm : s.shaft.motion = .moving := by simp only [State.restDwellReached, Bool.and_eq_true, beq_iff_eq] at h; exact h.1.1
  have hs := scheduleTick_moves (who := who) (s := s) (x := { s.shaft with motion := .atRest }) rfl
  rwa [hm] at hs

/-! ## The satellite poller and the time base (chapter 8, R11) -/

theorem changeEntry_stays (n : Fin 8) (e : SampleEntry) (s : State) : Stays who .between s (changeEntry n e s) := by
  have he : Move who .between s .between (s.setEntry n e) := .aside ..
  unfold changeEntry handHold
  dsimp only
  split
  · exact he.one
  · refine .cons he (.cons (.post _ (.satellite n (s.entry n).state e.state e.value s.sat.round (s.satConfig n).consequence) _) ?_)
    split
    · exact handCause_stays _ _
    · exact .none _ _ _

theorem endTransaction_stays (t : Transaction) (bus : List BusItem) (s : State) :
    Stays who .between s (endTransaction t bus s) := by
  rw [endTransaction_eq]
  exact (Move.aside ..).one

theorem answerTransaction_stays (hi lo : Byte) (s : State) : Stays who .between s (answerTransaction hi lo s) := by
  unfold answerTransaction
  split
  · exact .refl _ s
  · dsimp only
    split
    · exact endTransaction_stays ..
    · exact (changeEntry_stays ..).before (endTransaction_stays ..)

theorem failTransaction_stays (t : Transaction) (bus : List BusItem) (s : State) :
    Stays who .between s (failTransaction t bus s) := by
  unfold failTransaction
  split
  · exact endTransaction_stays ..
  · exact (changeEntry_stays ..).before (endTransaction_stays ..)

theorem refuseTransaction_stays (byte : NackByte) (s : State) : Stays who .between s (refuseTransaction byte s) := by
  unfold refuseTransaction
  split
  · exact .refl _ s
  · exact failTransaction_stays ..

theorem timeOutTransaction_stays (s : State) : Stays who .between s (timeOutTransaction s) := by
  unfold timeOutTransaction
  split
  · exact .refl _ s
  · exact .cons (.aside .between s s.sat s.webOk s.time _ s.pending) (failTransaction_stays ..)

theorem startRound_stays (s : State) : Stays who .between s (startRound s) := by
  unfold startRound
  dsimp only
  split
  · exact (Move.aside ..).one
  · rw [pollFrom_after]
    exact (Move.aside ..).one

theorem takeTimed_stays (event : TimedEvent) (s : State) : Stays who .between s (takeTimed event s) := by
  cases event with
  | pulseEnd ch => exact (Move.pulseEnd ch s).one
  | timeout => exact timeOutTransaction_stays s
  | roundStart => exact startRound_stays s

theorem passTime_stays (t : Nat) (s : State) : Stays who .between s (passTime t s) := (Move.aside ..).one

theorem advanceTime_stays (k limit : Nat) (s : State) : Stays who .between s (advanceTime k limit s) := by
  induction k generalizing s with
  | zero => exact passTime_stays limit s
  | succ k ih =>
    simp only [advanceTime]
    split
    · exact passTime_stays limit s
    · exact (passTime_stays _ _).before ((takeTimed_stays _ _).before (ih _))

theorem passTick_moves (s : State) : Moves who 256 .between s .between (passTick s) :=
  (advanceTime_stays timedLimit _ s).before (tickEvent_moves _)

theorem passMicrosecond_moves (s : State) : Moves who 256 .between s .between (passMicrosecond s) := by
  unfold passMicrosecond
  dsimp only
  split
  · exact (advanceTime_stays timedLimit _ s).before (tickEvent_moves _)
  · exact (advanceTime_stays timedLimit _ s).le (by omega)

/-! ## Transfers and commands (chapter 11) -/

theorem sameQueue_endTransfer (x : Port) (all : List Byte) : x.SameQueue (x.endTransfer all) := by
  unfold Port.endTransfer
  split <;> exact ⟨rfl, rfl, rfl⟩

theorem sameQueue_shiftIn (x : Port) (mosi : List Byte) : x.SameQueue (x.shiftIn mosi) := by
  unfold Port.shiftIn
  split <;> exact ⟨rfl, rfl, rfl⟩

section OnPort

variable {p : PortId} (hp : who.port = some p)
include hp

theorem respond_move (r : Response) (s : State) : Move who .between s .between (respond p r s) :=
  .port hp ⟨rfl, rfl, rfl⟩

theorem endTransfer_stays (all : List Byte) (s : State) : Stays who .between s (endTransfer p all s).part := by
  unfold endTransfer
  split
  · exact (Move.port hp (sameQueue_endTransfer _ _)).one
  · split
    · exact (Move.port (x := { s.port p with transfer := .idle }) hp ⟨rfl, rfl, rfl⟩).one
    · exact .refl _ _

theorem endWithAnswer_stays (all : List Byte) (judge : List Byte → Bool) (answer : List Byte → Response) (s : State) :
    Stays who .between s (endWithAnswer p all judge answer s) := by
  unfold endWithAnswer
  split
  · exact endTransfer_stays hp ..
  · split
    · exact (endTransfer_stays hp ..).before (respond_move hp ..).one
    · exact .refl _ _

theorem execNop_stays {tag : Byte} {payload : List Byte} {t : State} (h : execNop p tag payload s = .next t) :
    Stays who .between s t := by
  cases h
  dsimp only
  split
  · exact endTransfer_stays hp ..
  · split
    · exact endTransfer_stays hp ..
    · exact (endTransfer_stays hp ..).before (respond_move hp ..).one

/-- A command changes what its own rule changes, and its port. -/
theorem takeCommand_stays {body : State → Answer}
    (hb : ∀ u : State, Stays who .between u (body u).part) (code tag : Byte) (payload : List Byte) (s : State) :
    Stays who .between s (takeCommand p code tag payload body s) := by
  unfold takeCommand
  split
  · exact endTransfer_stays hp ..
  · split
    · exact (endTransfer_stays hp ..).before ((hb _).before (respond_move hp ..).one)
    · exact (endTransfer_stays hp ..).before (respond_move hp ..).one

end OnPort

theorem withLength_stays {n : Nat} {payload : List Byte} {body : State → Answer}
    (hb : ∀ u : State, Stays who .between u (body u).part) (s : State) :
    Stays who .between s (withLength n payload body s).part := by
  unfold withLength
  split
  · exact hb s
  · exact .refl _ _

theorem withSlot_stays {n : Nat} {body : Fin 4 → State → Answer}
    (hb : ∀ (i : Fin 4) (u : State), Stays who .between u (body i u).part) (s : State) :
    Stays who .between s (withSlot n body s).part := by
  unfold withSlot
  split
  · exact .refl _ _
  · exact hb _ s

end Events

/-! ## What the commands' own rules change -/

section Commands

variable {who : Origin}

theorem subscribe_stays {p : PortId} (hp : who.port = some p) (mask : Nat) (s : State) :
    Stays who .between s (subscribe p mask s).part :=
  (Move.port (x := { s.port p with subscription := noticeKindsOf mask }) hp ⟨rfl, rfl, rfl⟩).one

theorem readNotices_stays {p : PortId} (hp : who.port = some p) (hr : who.reads = true) (n : Nat) (s : State) :
    Stays who .between s (readNotices p n s).part := by
  unfold readNotices
  dsimp only [answerOk]
  split
  · exact .refl _ _
  · exact (Move.read _ hp hr).one

theorem startRun_stays (n : Nat) (s : State) : Stays who .between s (startRun n s).part := by
  unfold startRun
  split
  · exact .refl _ _
  split
  · exact .refl _ _
  next hr =>
  split
  · exact .refl _ _
  split
  · exact .refl _ _
  split
  · exact .refl _ _
  next hi =>
  split
  · exact .refl _ _
  · exact .cons (.start (not_not.mp hr) (not_not.mp hi)) (Move.post ..).one

theorem stopRun_stays (s : State) : Stays who .between s (stopRun s).part := handCause_stays ..

theorem clearHalt_stays (named : CauseSet) (s : State) : Stays who .between s (clearHalt named s).part := by
  unfold clearHalt
  split
  · exact .refl _ _
  · show Stays who .between s (removeCauses (removedCauses named s) s)
    unfold removeCauses
    split
    · exact .refl _ _
    · exact .cons (.causes _ _ _) (Move.post _ _ _).one

/-- The notices of a RUN_RESET are posted one by one (R173). -/
theorem resetTo_stays (s : State) (ms ns : List Notice) : Stays who .between (s.resetTo ms) (s.resetTo (ms ++ ns)) := by
  induction ns generalizing ms with
  | nil => rw [List.append_nil]; exact .refl _ _
  | cons n ns ih =>
    have h := ih (ms ++ [n])
    rw [List.append_assoc] at h
    exact .cons (.post _ n _) (by rwa [post_resetTo])

theorem resetRun_stays (s : State) : Stays who .between s (resetRun s) := by
  rw [resetRun_eq]
  exact .cons (.reset s) (resetTo_stays s [] _)

theorem runReset_stays (s : State) : Stays who .between s (runReset s).part := by
  unfold runReset
  split
  · exact .refl _ _
  · exact resetRun_stays s

/-- The checks that name no failing field all hold. -/
theorem forall_true_of_firstFailing {checks : List Bool} (h : firstFailing checks = none) : ∀ b ∈ checks, b = true := by
  induction checks with
  | nil => simp
  | cons c cs ih =>
    cases c <;> simp_all [firstFailing]

theorem writeConfig_stays (payload : List Byte) (s : State) : Stays who .between s (writeConfig payload s).part := by
  unfold writeConfig
  split
  · split <;> exact .refl _ _
  split
  · exact .refl _ _
  unfold writeSection
  dsimp only
  split
  · exact .refl _ _
  next hr =>
  split
  · exact .refl _ _
  split
  · exact .refl _ _
  next hc => exact (Move.config (not_not.mp hr) (forall_true_of_firstFailing hc)).one

theorem openStaging_stays (p : PortId) (s : State) : Stays who .between s (openStaging p s).part := by
  unfold openStaging
  split
  · exact (Move.staging _ s).one
  · exact .refl _ _

theorem dropStaging_stays (p : PortId) (s : State) : Stays who .between s (dropStaging p s).part := by
  unfold dropStaging
  split
  · exact (Move.staging _ s).one
  · exact .refl _ _

theorem failStaging_stays (kind : InvalidKind) (item field : Nat) (s : State) :
    Stays who .between s (failStaging kind item field s).part := (Move.staging _ s).one

theorem writeStaging_stays (p : PortId) (payload : List Byte) (s : State) :
    Stays who .between s (writeStaging p payload s).part := by
  unfold writeStaging
  split
  · exact .refl _ _
  split
  · exact .refl _ _
  unfold writeStaged
  split
  · exact failStaging_stays ..
  split
  · exact failStaging_stays ..
  unfold storeSection
  split
  · exact failStaging_stays ..
  split
  · exact failStaging_stays ..
  · exact (Move.staging _ s).one

theorem commitTo_stays (i : Fin 4) (s : State) : Stays who .between s (commitTo i s).part := by
  unfold commitTo
  split
  · exact .refl _ _
  · next hi =>
    split
    · exact .refl _ _
    · exact .refl _ _
    · exact .cons (.commit _ (by simpa using hi)) (Move.staging _ _).one

theorem commitStaging_stays (p : PortId) (n : Nat) (s : State) :
    Stays who .between s (commitStaging p n s).part := by
  unfold commitStaging
  split
  · exact .refl _ _
  split
  · exact .refl _ _
  split
  · exact .refl _ _
  · exact commitTo_stays _ s

theorem eraseSlot_stays (i : Fin 4) (s : State) : Stays who .between s (eraseSlot i s).part := by
  unfold eraseSlot
  split
  · exact .refl _ _
  · next hi => exact (Move.erase (by simpa using hi)).one

theorem armTrigger_stays (t : Option Trigger) (i : Fin 4) (s : State) : Stays who .between s (armTrigger t i s).part := by
  unfold armTrigger
  split
  · exact .refl _ _
  unfold armChangeover
  split
  · exact .refl _ _
  next hr =>
  split
  · exact .refl _ _
  next hb =>
  split
  · exact .refl _ _
  next hi =>
  split
  · exact .refl _ _
  split
  · exact .refl _ _
  · exact (Move.arm _ hr (by simpa using hb) (not_not.mp hi)).one

theorem cancelChangeover_stays (s : State) : Stays who .between s (cancelChangeover s).part := by
  unfold cancelChangeover
  split
  · exact .refl _ _
  · next hi => exact (Move.cancel hi).one

theorem find_of_lookup_found {t : Track} {n : Serial} {b : Blank} (h : t.lookup n = .found b) : t.find n = some b := by
  unfold Track.lookup at h
  cases hf : t.find n with
  | some x => rw [hf] at h; simp_all
  | none => rw [hf] at h; dsimp only at h; split at h <;> cases h

theorem entryOf_eq_none {verdicts : List VerdictEntry} {i : Fin 4} (h : entryOf verdicts i = none) :
    i ∉ verdicts.map VerdictEntry.source := by
  intro hi
  obtain ⟨v, hv, rfl⟩ := List.mem_map.mp hi
  have := List.find?_eq_none.mp h v hv
  simp at this

theorem sources_overrule (verdicts : List VerdictEntry) (i : Fin 4) (code : Byte) :
    (overrule verdicts i code).map VerdictEntry.source = verdicts.map VerdictEntry.source := by
  unfold overrule
  rw [List.map_map]
  refine List.map_congr_left fun v _ => ?_
  simp only [Function.comp_apply]
  split <;> rfl

/-- A verdict joins the list at its end, with a source that is new there, or keeps every source (R108, R109). -/
theorem sources_verdictOutcome (expected : SourceSet) (b : Blank) (i : Fin 4) (result : Judgement) (code : Byte) :
    ((verdictOutcome expected b i result code).verdicts.map VerdictEntry.source = b.verdicts.map VerdictEntry.source)
      ∨ i ∉ b.verdicts.map VerdictEntry.source
        ∧ (verdictOutcome expected b i result code).verdicts.map VerdictEntry.source
          = b.verdicts.map VerdictEntry.source ++ [i] := by
  unfold verdictOutcome
  split
  · exact .inl rfl
  split
  · exact .inl rfl
  split
  · exact .inl rfl
  split
  · unfold lateVerdict
    split
    · next hnone => exact .inr ⟨entryOf_eq_none hnone, by simp⟩
    · exact .inl rfl
  · unfold timelyVerdict
    split
    · next hnone => exact .inr ⟨entryOf_eq_none hnone, by simp⟩
    · split
      · exact .inl (sources_overrule ..)
      · exact .inl rfl

theorem stepsTo_verdict (expected : SourceSet) (b : Blank) (i : Fin 4) (result : Judgement) (code : Byte) :
    b.StepsTo { b with verdicts := (verdictOutcome expected b i result code).verdicts } := by
  have hkeep := sources_verdictOutcome expected b i result code
  refine ⟨⟨rfl, rfl, fun _ => rfl, fun _ h => h, fun _ h => h, fun _ h => h, id, ?_, fun _ => rfl, fun _ => rfl⟩, ?_⟩
  · obtain h | ⟨-, h⟩ := hkeep
    · exact h ▸ List.prefix_refl _
    · exact ⟨[i], h.symm⟩
  · rintro ⟨hcount, hdiverts, hone⟩
    refine ⟨hcount, hdiverts, ?_⟩
    unfold Blank.OneVerdictEach at hone ⊢
    obtain h | ⟨hnew, h⟩ := hkeep
    · rwa [h]
    · rw [h]
      exact List.nodup_append.mpr ⟨hone, List.nodup_singleton i, fun x hx y hy => by
        rintro rfl
        exact hnew (List.mem_singleton.mp hy ▸ hx)⟩

theorem judgeBlank_stays {s : State} {b : Blank} (hf : s.track.find b.serial = some b) (i : Fin 4) (result : Judgement)
    (code : Byte) : Stays who .between s (judgeBlank b i result code s).part := by
  refine (Move.record .between (n := b.serial)
    (f := fun x => { x with verdicts := (verdictOutcome (s.expectedOf b) b i result code).verdicts }) (fun _ => rfl)
    fun x hx => ?_).one
  rw [hf] at hx
  cases hx
  exact stepsTo_verdict ..

theorem takeVerdict_stays (n : Serial) (source result : Nat) (code : Byte) (s : State) :
    Stays who .between s (takeVerdict n source result code s).part := by
  unfold takeVerdict
  split
  · split
    · exact .refl _ _
    · exact .refl _ _
    · next b hl =>
      have hf := find_of_lookup_found hl
      exact judgeBlank_stays (serial_of_find hf ▸ hf) ..
  · exact .refl _ _

theorem requestClose_stays (s : State) : Stays who .between s (requestClose s).part := by
  unfold requestClose
  dsimp only
  split
  · exact .refl _ _
  · exact (Move.batch _ (by rfl)).one

theorem ackBatch_stays (n : Serial) (s : State) : Stays who .between s (ackBatch n s).part := by
  unfold ackBatch
  split
  · exact .refl _ _
  · next hq =>
    split
    · exact (Move.acknowledge hq).one
    · exact .refl _ _

/-- A command that changes nothing but its port. -/
theorem reads_stays {body : State → Answer} (hb : ∀ u : State, (body u).part = u) (s : State) :
    Stays who .between s (body s).part := by
  rw [hb]
  exact .refl _ _

end Commands

/-! ## Every command and every step -/

/-- Where the changes of a command come from. -/
def originOf (i : Instr) : Origin :=
  match i with
  | .noticeRead p _ _ => ⟨some p, true⟩
  | i => ⟨i.port, false⟩

section Exec

variable {s t : State}

theorem noValve_windowOpenPoint (ch : RegChannel) : NoValve (windowOpenPoint ch) := by cases ch <;> exact fun _ _ => ⟨nofun, nofun⟩

theorem noValve_windowClosePoint (ch : RegChannel) : NoValve (windowClosePoint ch) := by cases ch <;> exact fun _ _ => ⟨nofun, nofun⟩

theorem homed_of_creationDue (h : s.creationDue = true) : s.shaft.homed = true := by
  unfold State.creationDue at h
  simp_all

/-- The commands that are events of the machine. -/
theorem exec_event_moves {i : Instr} (who : Origin) (hi : i.port = none) (hr : ∀ a b, i ≠ .hardwareReset a b)
    (h : exec i s = .next t) : Moves who 257 .between s .between t := by
  have web (w : Bool) : Move who .between s .between { s with webOk := w } := .aside ..
  have kept : Moves who 257 .between s .between s := .none _ _ _
  have filled {pt : TimedPoint} (hv : NoValve pt) : Moves who 257 .between s .between (fireFilled pt s) :=
    (fireFilled_moves hv s).le (by omega)
  cases i <;> cases hi <;> cases h
  case hardwareReset a b => exact absurd rfl (hr a b)
  case encoderCount a b w => exact (Moves.cons (web w) (sampleEncoder_moves a b _)).le (by omega)
  case indexEdge w => exact (Moves.cons (web w) (takeIndexEdge_moves _)).le (by omega)
  case indexMissing =>
    split
    · next hm =>
      exact (encoderFault_stays _ _ (homed_of_indexIsMissing (Bool.and_eq_true_iff.mp hm).1)).le (by omega)
    · exact kept
  case blankCreation =>
    split
    · next hd => exact (Moves.cons (.enter s) ((createBlank_moves (homed_of_creationDue hd)).append (settleEvent_moves_within who _))).le (by omega)
    · exact kept
  case tick => exact (passTick_moves s).le (by omega)
  case restDwellExpiry =>
    split
    · next hd => exact (restDwellExpires_moves hd).le (by omega)
    · exact kept
  case webSample w => exact (Moves.cons (web w) (fireFilled_moves (pt := .webSample) (fun _ _ => ⟨nofun, nofun⟩) _)).le (by omega)
  case windowOpen ch => exact filled (noValve_windowOpenPoint ch)
  case windowClose ch => exact filled (noValve_windowClosePoint ch)
  case captureEdge ch => exact (captureEdge_stays ch s).le (by omega)
  case spliceEdge => exact (spliceEdge_stays s).le (by omega)
  case patchKnife => exact filled fun _ _ => ⟨nofun, nofun⟩
  case valveOn v k => exact (setValveOutputs_fireFilled_moves who _ s).le (by omega)
  case valveOff v k => exact (setValveOutputs_fireFilled_moves who _ s).le (by omega)
  case voidSlotConsumed pt =>
    split
    · exact (setValveOutputs_firePoint_moves who pt s).le (by omega)
    · exact kept
  case camera => exact filled fun _ _ => ⟨nofun, nofun⟩
  case gateDecision => exact filled fun _ _ => ⟨nofun, nofun⟩
  case countPoint => exact filled fun _ _ => ⟨nofun, nofun⟩
  case kick => exact filled fun _ _ => ⟨nofun, nofun⟩
  case pulseEnd ch =>
    split
    · exact kept
    · split
      · exact (Move.pulseEnd ch s).one
      · exact kept
  case roundStart =>
    split
    · exact kept
    · split
      · exact (startRound_stays s).le (by omega)
      · exact kept
  case transactionAnswer hi lo => exact (answerTransaction_stays hi lo s).le (by omega)
  case noAcknowledge byte => exact (refuseTransaction_stays byte s).le (by omega)
  case transactionTimeout =>
    split
    · exact kept
    · split
      · exact (timeOutTransaction_stays s).le (by omega)
      · exact kept
  case quadratureErrorSample =>
    have hq : Move who .between s .between (s.setQuadrature (!s.shaft.quadA) (!s.shaft.quadB)) := .shaft _ rfl .inl
    exact (Moves.cons hq (quadratureError_stays _)).le (by omega)

theorem readBlank_part (n : Serial) (s : State) : (readBlank n s).part = s := by
  unfold readBlank
  split <;> rfl

theorem readSatellite_part (n : Nat) (s : State) : (readSatellite n s).part = s := by
  unfold readSatellite
  split <;> rfl

theorem readConfig_part (n : Nat) (s : State) : (readConfig n s).part = s := by
  unfold readConfig
  split <;> rfl

theorem readSlot_part (code : Nat) (i : Fin 4) (s : State) : (readSlot code i s).part = s := by
  unfold readSlot
  split
  · rfl
  · split <;> rfl

theorem readSignature_part (i : Fin 4) (s : State) : (readSignature i s).part = s := by
  unfold readSignature
  split <;> rfl

theorem peekBatch_part (s : State) : (peekBatch s).part = s := by
  unfold peekBatch
  split <;> rfl

/-- The commands that come in on a port. -/
theorem exec_port_moves {i : Instr} {p : PortId} (hi : i.port = some p) (h : exec i s = .next t) :
    Moves (originOf i) 257 .between s .between t := by
  have cmd {who : Origin} {p : PortId} (hp : who.port = some p) {body : State → Answer} (code tag : Byte)
      (payload : List Byte)
      (hb : ∀ u : State, Stays who .between u (body u).part) :
      Moves who 257 .between s .between (takeCommand p code tag payload body s) :=
    (takeCommand_stays hp hb code tag payload s).le (by omega)
  cases i <;> cases hi
  case transferBegin mosi =>
    cases h
    exact (Move.port rfl (sameQueue_shiftIn _ _)).one
  case frame bytes => cases h; exact (endWithAnswer_stays rfl ..).le (by omega)
  case unknown bytes => cases h; exact (endWithAnswer_stays rfl ..).le (by omega)
  case nop tag payload => exact (execNop_stays rfl h).le (by omega)
  all_goals cases h
  case identify => exact cmd rfl _ _ _ (withLength_stays (reads_stays fun _ => rfl))
  case subscribe => exact cmd rfl _ _ _ (withLength_stays (subscribe_stays rfl _))
  case noticeRead => exact cmd rfl _ _ _ (withLength_stays (readNotices_stays rfl rfl _))
  case status => exact cmd rfl _ _ _ (withLength_stays (reads_stays fun _ => rfl))
  case start => exact cmd rfl _ _ _ (withLength_stays (startRun_stays _))
  case stop => exact cmd rfl _ _ _ (withLength_stays stopRun_stays)
  case clearHalt => exact cmd rfl _ _ _ (withLength_stays (clearHalt_stays _))
  case runReset => exact cmd rfl _ _ _ (withLength_stays runReset_stays)
  case configWrite => exact cmd rfl _ _ _ (writeConfig_stays _)
  case configRead => exact cmd rfl _ _ _ (withLength_stays (reads_stays (readConfig_part _)))
  case stageOpen => exact cmd rfl _ _ _ (withLength_stays (openStaging_stays _))
  case stageWrite => exact cmd rfl _ _ _ (writeStaging_stays _ _)
  case stageCommit => exact cmd rfl _ _ _ (withLength_stays (commitStaging_stays _ _))
  case stageDrop => exact cmd rfl _ _ _ (withLength_stays (dropStaging_stays _))
  case slotErase => exact cmd rfl _ _ _ (withLength_stays (withSlot_stays eraseSlot_stays))
  case slotRead => exact cmd rfl _ _ _ (withLength_stays (withSlot_stays fun i => reads_stays (readSlot_part _ i)))
  case slotSignature =>
    exact cmd rfl _ _ _ (withLength_stays (withSlot_stays fun i => reads_stays (readSignature_part i)))
  case changeoverArm => exact cmd rfl _ _ _ (withLength_stays (withSlot_stays (armTrigger_stays _)))
  case changeoverCancel => exact cmd rfl _ _ _ (withLength_stays cancelChangeover_stays)
  case trackRead => exact cmd rfl _ _ _ (withLength_stays (reads_stays (readBlank_part _)))
  case registerRead => exact cmd rfl _ _ _ (withLength_stays (reads_stays fun _ => rfl))
  case verdict => exact cmd rfl _ _ _ (withLength_stays (takeVerdict_stays _ _ _ _))
  case batchClose => exact cmd rfl _ _ _ (withLength_stays requestClose_stays)
  case batchPeek => exact cmd rfl _ _ _ (withLength_stays (reads_stays peekBatch_part))
  case batchAck => exact cmd rfl _ _ _ (withLength_stays (ackBatch_stays _))
  case satelliteRead => exact cmd rfl _ _ _ (withLength_stays (reads_stays (readSatellite_part _)))

end Exec

/-- Every command but a hardware reset is a run of changes. -/
theorem exec_moves {i : Instr} {s t : State} (hr : ∀ a b, i ≠ .hardwareReset a b) (h : exec i s = .next t) :
    Moves (originOf i) 257 .between s .between t := by
  cases hi : i.port with
  | none => exact exec_event_moves _ hi hr h
  | some p => exact exec_port_moves hi h

/-- A step is a hardware reset, or a run of changes in which at most 257 blanks are created; the changes come from a NOTICE_READ only
where the step takes one. -/
theorem step_cases_moves {s t : State} (h : step s = .next t) :
    (∃ a b u, u.ports = s.ports ∧ execHardwareReset a b u = .next t)
      ∨ ∃ who : Origin, Moves who 257 .between s .between t
        ∧ (who.reads = true → ∃ p tag payload u, u.ports = s.ports ∧ execNoticeRead p tag payload u = .next t) := by
  obtain ⟨-, rfl⟩ | ⟨i, rest, -, he⟩ := step_cases h
  · exact .inr ⟨⟨none, false⟩, (passMicrosecond_moves s).le (by omega), nofun⟩
  · by_cases hr : ∃ a b, i = .hardwareReset a b
    · obtain ⟨a, b, rfl⟩ := hr
      exact .inl ⟨a, b, { s with pending := rest }, rfl, he⟩
    · have hp : Move (originOf i) .between s .between { s with pending := rest } := .aside ..
      refine .inr ⟨_, .cons hp (exec_moves (fun a b hi => hr ⟨a, b, hi⟩) he), fun hreads => ?_⟩
      cases i
      case noticeRead p tag payload => exact ⟨p, tag, payload, { s with pending := rest }, rfl, he⟩
      all_goals cases hreads

end Sys2Proof.Machine
end

section
/-! PROOFS. Every step keeps PERMIT and the homed flag on the run state (R4, R8, R162, R168). -/

namespace Sys2Proof.Machine

theorem permitFollows_setRun (s : State) (r : RunState) (c : CauseSet) : (s.setRun r c).PermitFollows := by
  simp [State.PermitFollows, permitOf_eq]

/-- What stands of the run state in a phase: at a homing that is not yet LIVE the shaft is homed and the run state HOMING. -/
def RunKept : Phase → State → Prop
  | .arriving, s => s.PermitFollows ∧ s.shaft.homed = true ∧ s.run.runState = .homing
  | .between, s => s.RunLawful
  | .within, s => s.RunLawful
  | .firing, s => s.RunLawful

section Kept

variable {who : Origin} {a b : Phase} {s t : State}

theorem runKept_congr (h : RunKept a s) (hr : t.run = s.run) (hh : t.shaft.homed = s.shaft.homed) : RunKept a t := by
  cases a <;> simpa only [RunKept, State.RunLawful, State.PermitFollows, State.HomedInLive, hr, hh] using h

theorem not_off_of_homed (h : RunKept a s) (hh : s.shaft.homed = true) : s.run.runState ≠ .off := by
  cases a with
  | arriving =>
    obtain ⟨-, -, hr⟩ := h
    simp [hr]
  | between => simp [h.2.mp hh]
  | within => simp [h.2.mp hh]
  | firing => simp [h.2.mp hh]

theorem runKept_move (hm : Move who a s b t) (h : RunKept a s) : RunKept b t := by
  cases hm
  case causes c =>
    cases a
    case arriving =>
      obtain ⟨-, hh, hr⟩ := h
      exact ⟨permitFollows_setRun .., hh, hr⟩
    case between => exact ⟨permitFollows_setRun .., h.2⟩
    case within => exact ⟨permitFollows_setRun .., h.2⟩
    case firing => exact ⟨permitFollows_setRun .., h.2⟩
  case home c hh hr => exact ⟨h.1, rfl, hr⟩
  case live =>
    obtain ⟨-, hh, -⟩ := h
    exact ⟨permitFollows_setRun .., by simp [State.HomedInLive, hh]⟩
  case fault kind detail hh => exact ⟨permitFollows_setRun .., by simp [State.HomedInLive, State.faulted]⟩
  case start i hr hi =>
    have hlive := h.2
    exact ⟨permitFollows_setRun .., by simpa [State.HomedInLive, State.started, hr] using hlive⟩
  case reset => exact ⟨by simp [State.PermitFollows, State.resetTo], by simp [State.HomedInLive, State.resetTo, Shaft.runReset]⟩
  case shaft hh hm => exact runKept_congr h rfl hh
  case enter => exact h
  case leave => exact h
  case pulse ch => exact runKept_congr h (by simp) (by simp)
  case pulseEnd ch => exact runKept_congr h (by simp) (by simp)
  case spliceSeen => exact runKept_congr h (by simp) (by simp)
  all_goals exact runKept_congr h rfl rfl

theorem runKept_moves {n : Nat} (hm : Moves who n a s b t) (h : RunKept a s) : RunKept b t :=
  hm.preserves (fun _ _ _ _ => runKept_move) (fun _ _ _ _ h => runKept_congr h rfl rfl) h

end Kept

/-- Settles O53, change by change: only a homing, a fault, START, a RUN_RESET and a change of the causes touch the run state. -/
theorem stepsKeepPermitAndHoming : Obligations.StepsKeepPermitAndHoming := by
  intro s t h hstep
  obtain ⟨a, b, u, -, hreset⟩ | ⟨who, hm, -⟩ := step_cases_moves hstep
  · obtain ⟨-, -, -, -, -, hrun, -, hshaft⟩ := hardwareReset_blocks hreset
    have hlaw : RunKept .between State.reset := reset_runLawful
    exact runKept_congr hlaw hrun (by rw [hshaft])
  · exact runKept_moves hm h

end Sys2Proof.Machine
end

section
/-! PROOFS. Every step keeps the notice queues in order (R196, R197, R199): every change of the part leaves a port's queue, or joins a
notice at its end, and only a NOTICE_READ removes any, from the head of its own port's queue. -/

namespace Sys2Proof.Machine

theorem queueNotice_prefix (x : Port) (n : Notice) : x.notices <+: (x.queueNotice n).notices := by
  unfold Port.queueNotice
  split_ifs
  · exact List.prefix_append ..
  · exact List.prefix_refl _
  · exact List.prefix_append ..
  · exact List.prefix_refl _
  · exact List.prefix_refl _

theorem noticesInOrder_of_sameQueue {x y : Port} (h : x.SameQueue y) (hx : x.NoticesInOrder) : y.NoticesInOrder := by
  obtain ⟨hn, hl, ha⟩ := h
  simpa only [Port.NoticesInOrder, hn, hl, ha] using hx

theorem noticesInOrder_drop {x : Port} (k : Nat) (hx : x.NoticesInOrder) :
    (x.withNotices (x.notices.drop k)).NoticesInOrder := by
  obtain ⟨hlen, hlost, -⟩ := hx
  refine ⟨?_, hlost, by simp [Port.withNotices]⟩
  simp only [Port.withNotices, List.length_drop]
  omega

/-- What every port keeps: its order, and, but in a NOTICE_READ, the notices `before` it at the head of its queue. -/
def PortsKept (reads : Bool) (before : PortId → List Notice) (s : State) : Prop :=
  ∀ p : PortId, (s.port p).NoticesInOrder ∧ (reads = false → before p <+: (s.port p).notices)

section Kept

variable {who : Origin} {a b : Phase} {s t : State} {before : PortId → List Notice}

theorem portsKept_congr (h : PortsKept who.reads before s) (hp : t.ports = s.ports) : PortsKept who.reads before t := by
  intro p
  have hport : t.port p = s.port p := congrArg (fun x : Ports => x.get p) hp
  rw [hport]
  exact h p

theorem portsKept_setPort (h : PortsKept who.reads before s) {p : PortId} {x : Port} (ho : x.NoticesInOrder)
    (hb : who.reads = false → before p <+: x.notices) : PortsKept who.reads before (s.setPort p x) := by
  intro q
  by_cases hq : q = p
  · subst hq
    rw [setPort_port_self]
    exact ⟨ho, hb⟩
  · rw [setPort_port_of_ne _ _ hq]
    exact h q

theorem portsKept_move (hm : Move who a s b t) (h : PortsKept who.reads before s) : PortsKept who.reads before t := by
  cases hm
  case post n =>
    intro p
    obtain ⟨ho, hb⟩ := h p
    rw [post_port]
    exact ⟨queueNotice_notices_in_order _ n ho, fun hr => (hb hr).trans (queueNotice_prefix _ n)⟩
  case port p x hp hx =>
    obtain ⟨ho, hb⟩ := h p
    exact portsKept_setPort h (noticesInOrder_of_sameQueue hx ho) (hx.1 ▸ hb)
  case read p k hp hr =>
    obtain ⟨ho, -⟩ := h p
    exact portsKept_setPort h (noticesInOrder_drop k ho) fun hf => by rw [hf] at hr; cases hr
  case pulse ch => exact portsKept_congr h (by simp)
  case pulseEnd ch => exact portsKept_congr h (by simp)
  case spliceSeen => exact portsKept_congr h (by simp)
  all_goals exact portsKept_congr h rfl

theorem portsKept_moves {n : Nat} (hm : Moves who n a s b t) (h : PortsKept who.reads before s) :
    PortsKept who.reads before t :=
  hm.preserves (Inv := fun _ s => PortsKept who.reads before s) (fun _ _ _ _ => portsKept_move)
    (fun _ _ _ _ h => portsKept_congr h rfl) h

end Kept

/-! ## NOTICE_READ (R199) -/

section Read

variable {p q : PortId} {s t : State}

/-- A queue from whose head some records, or none, are removed. -/
def Removes (before after : List Notice) : Prop := ∃ k, after = before.drop k

theorem Removes.refl (xs : List Notice) : Removes xs xs := ⟨0, rfl⟩

theorem endTransfer_notices (p q : PortId) (all : List Byte) (s : State) :
    ((endTransfer p all s).part.port q).notices = (s.port q).notices := by
  have same (x : Port) (hx : (s.port p).SameQueue x) : ((s.setPort p x).port q).notices = (s.port q).notices := by
    by_cases hq : q = p
    · subst hq
      rw [setPort_port_self]
      exact hx.1
    · rw [setPort_port_of_ne _ _ hq]
  unfold endTransfer
  split
  · exact same _ (sameQueue_endTransfer _ _)
  · split
    · exact same _ ⟨rfl, rfl, rfl⟩
    · rfl

theorem respond_notices (p q : PortId) (r : Response) (s : State) : ((respond p r s).port q).notices = (s.port q).notices := by
  unfold respond
  by_cases hq : q = p
  · subst hq
    rw [setPort_port_self]
  · rw [setPort_port_of_ne _ _ hq]

theorem readNotices_removes (p q : PortId) (n : Nat) (s : State) :
    Removes (s.port q).notices ((readNotices p n s).part.port q).notices := by
  unfold readNotices
  dsimp only [answerOk]
  split
  · exact .refl _
  · by_cases hq : q = p
    · subst hq
      rw [setPort_port_self]
      exact ⟨_, rfl⟩
    · rw [setPort_port_of_ne _ _ hq]
      exact .refl _

theorem execNoticeRead_removes {tag : Byte} {payload : List Byte} (h : execNoticeRead p tag payload s = .next t) (q : PortId) :
    Removes (s.port q).notices (t.port q).notices := by
  cases h
  unfold takeCommand
  rw [← endTransfer_notices p q (commandFrame 0x03 tag payload) s]
  split
  · exact .refl _
  · split
    · rw [respond_notices]
      unfold withLength
      split
      · exact readNotices_removes ..
      · exact .refl _
    · rw [respond_notices]
      exact .refl _

end Read

/-- Settles O54, change by change, NOTICE_READ apart. -/
theorem stepsKeepNoticesInOrder : Obligations.StepsKeepNoticesInOrder := by
  intro s t h hstep
  obtain ⟨a, b, u, -, hreset⟩ | ⟨who, hm, hread⟩ := step_cases_moves hstep
  · refine ⟨fun p => ?_, fun p => .inl ⟨(s.port p).notices.length, ?_⟩⟩ <;> obtain ⟨hn, hl, ha⟩ := hardwareReset_port hreset p
    · simp [Port.NoticesInOrder, hn, hl, ha]
    · rw [hn, List.drop_length]
  · have hkept := portsKept_moves hm (before := fun p => (s.port p).notices) fun p => ⟨h p, fun _ => List.prefix_refl _⟩
    refine ⟨fun p => (hkept p).1, fun p => ?_⟩
    cases hr : who.reads with
    | false => exact .inr ((hkept p).2 hr)
    | true =>
      obtain ⟨q, tag, payload, u, hu, he⟩ := hread hr
      have hport : u.port p = s.port p := congrArg (fun x : Ports => x.get p) hu
      exact .inl (hport ▸ execNoticeRead_removes he p)

end Sys2Proof.Machine
end

section
/-! PROOFS. A command touches no other port but by the notices it posts (R191, R195). -/

namespace Sys2Proof.Machine

/-- What a port keeps through another port's command: all but its queue, at whose end notices may join. -/
def Port.OnlyGains (x y : Port) : Prop :=
  y.transfer = x.transfer ∧ y.pending = x.pending ∧ y.subscription = x.subscription ∧ y.outFrame = x.outFrame ∧ y.miso = x.miso
    ∧ x.notices <+: y.notices

theorem Port.OnlyGains.refl (x : Port) : x.OnlyGains x := ⟨rfl, rfl, rfl, rfl, rfl, List.prefix_refl _⟩

theorem Port.OnlyGains.trans {x y z : Port} (h : x.OnlyGains y) (h' : y.OnlyGains z) : x.OnlyGains z := by
  obtain ⟨ht, hp, hs, ho, hm, hn⟩ := h
  obtain ⟨ht', hp', hs', ho', hm', hn'⟩ := h'
  exact ⟨ht'.trans ht, hp'.trans hp, hs'.trans hs, ho'.trans ho, hm'.trans hm, hn.trans hn'⟩

theorem onlyGains_queueNotice (x : Port) (n : Notice) : x.OnlyGains (x.queueNotice n) := by
  refine ⟨?_, ?_, ?_, ?_, ?_, queueNotice_prefix x n⟩ <;> unfold Port.queueNotice Port.withNotices <;> split_ifs <;> rfl

theorem onlyGains_move {who : Origin} {a b : Phase} {s t : State} {x : Port} {q : PortId} (hq : who.port ≠ some q)
    (hm : Move who a s b t) (h : x.OnlyGains (s.port q)) : x.OnlyGains (t.port q) := by
  have congr {u v : State} (h : x.OnlyGains (u.port q)) (hp : v.ports = u.ports) : x.OnlyGains (v.port q) := by
    have hport : v.port q = u.port q := congrArg (fun x : Ports => x.get q) hp
    rwa [hport]
  cases hm
  case post n => exact h.trans (post_port n s q ▸ onlyGains_queueNotice _ n)
  case port p y hp hy => rwa [setPort_port_of_ne _ _ fun hqp : q = p => hq (by rw [hp, hqp])]
  case read p k hp hr => rwa [setPort_port_of_ne _ _ fun hqp : q = p => hq (by rw [hp, hqp])]
  case pulse ch => exact congr h (by simp)
  case pulseEnd ch => exact congr h (by simp)
  case spliceSeen => exact congr h (by simp)
  all_goals exact congr h rfl

theorem originOf_port (i : Instr) : (originOf i).port = i.port := by cases i <;> rfl

/-- Settles O38, change by change. -/
theorem commandsLeaveOtherPortsAlone : Obligations.CommandsLeaveOtherPortsAlone := by
  intro i p q s t hi hq h
  have hother : (originOf i).port ≠ some q := by
    rw [originOf_port, hi]
    exact fun he => hq (Option.some.inj he).symm
  have hmoves : Moves (originOf i) 257 .between s .between t := exec_port_moves hi h
  exact hmoves.preserves (Inv := fun _ u => (s.port q).OnlyGains (u.port q)) (fun _ _ _ _ => onlyGains_move hother)
    (fun _ _ _ _ h => h) (Port.OnlyGains.refl _)

end Sys2Proof.Machine
end

section
/-! PROOFS. Every step keeps the batch numbers consecutive (R126, R137). -/

namespace Sys2Proof.Machine

section Kept

variable {who : Origin} {a b : Phase} {s t : State}

theorem batchesRun_congr (h : s.BatchesRun) (hb : t.batch = s.batch) : t.BatchesRun := by
  simpa only [State.BatchesRun, hb] using h

/-- A batch that joins the queue takes its number with it, and the next open batch has the next (R128). -/
theorem batchesRun_close (h : s.BatchesRun) (hq : s.batch.queue.length < 8) (reason : CloseReason) :
    (s.withClosed reason).BatchesRun := by
  obtain ⟨-, hrun⟩ := h
  refine ⟨?_, ?_⟩
  · simp only [State.withClosed, List.length_append, List.length_singleton]
    omega
  · simp only [State.withClosed, List.map_append, List.map_singleton, List.length_append, List.length_singleton, hrun]
    exact (serialsBefore_succ ..).symm

/-- The oldest record is removed: the others still run up to the open batch's number (R139). -/
theorem serialsBefore_tail (n : Serial) (len : Nat) : (serialsBefore n (len + 1)).tail = serialsBefore n len := by
  unfold serialsBefore
  rw [List.range_succ_eq_map, List.map_cons, List.tail_cons, List.map_map]
  exact List.map_congr_left fun i _ => by simp

theorem batchesRun_acknowledge (h : s.BatchesRun) {b : ClosedBatch} {rest : List ClosedBatch} (hq : s.batch.queue = b :: rest) :
    { s with batch := { s.batch with queue := rest } }.BatchesRun := by
  obtain ⟨hlen, hrun⟩ := h
  rw [hq] at hlen hrun
  refine ⟨(Nat.le_succ _).trans hlen, ?_⟩
  rw [← serialsBefore_tail]
  exact congrArg List.tail hrun

/-- RUN_RESET closes the open batch as a close does, or makes a new one with its number (R143). -/
theorem batchesRun_reset (h : s.BatchesRun) : (s.resetTo []).BatchesRun := by
  have hbatch : (s.resetTo []).batch = s.batch.runReset := rfl
  by_cases hc : s.batch.fateByte = 0
  · have hq : s.batch.queue.length < 8 := by
      unfold Batches.fateByte at hc
      split_ifs at hc with _ hq
      · exact absurd hc (by decide)
      · exact hq
      · exact absurd hc (by decide)
    refine batchesRun_congr (batchesRun_close h hq .runReset) ?_
    rw [hbatch, runReset_batch_of_closed hc]
    rfl
  · refine batchesRun_congr (s := s.setOpenBatch (OpenBatch.fresh s.batch.current.body.number)) h ?_
    rw [hbatch, runReset_batch_of_not_closed hc]
    rfl

theorem batchesRun_move (hm : Move who a s b t) (h : s.BatchesRun) : t.BatchesRun := by
  cases hm
  case close reason hq => exact batchesRun_close h hq reason
  case batch b hb =>
    obtain ⟨hlen, hrun⟩ := h
    exact ⟨hlen, hrun.trans (congrArg (fun n => serialsBefore n s.batch.queue.length) hb.symm)⟩
  case acknowledge hq => exact batchesRun_acknowledge h hq
  case reset => exact batchesRun_reset h
  case pulse ch => exact batchesRun_congr h (by simp)
  case pulseEnd ch => exact batchesRun_congr h (by simp)
  case spliceSeen => exact batchesRun_congr h (by simp)
  all_goals exact batchesRun_congr h rfl

end Kept

/-- Settles O55, change by change. -/
theorem stepsKeepBatchNumbersConsecutive : Obligations.StepsKeepBatchNumbersConsecutive := by
  intro s t h hstep
  obtain ⟨a, b, u, -, hreset⟩ | ⟨who, hm, -⟩ := step_cases_moves hstep
  · obtain ⟨-, -, -, -, hbatch, -⟩ := hardwareReset_blocks hreset
    exact batchesRun_congr reset_batchesRun hbatch
  · exact hm.preserves (Inv := fun _ => State.BatchesRun) (fun _ _ _ _ => batchesRun_move)
      (fun _ _ _ _ h => batchesRun_congr h rfl) h

end Sys2Proof.Machine
end

section
/-! PROOFS. Every step keeps the outputs on their segments, pulses and gate level (R82 to R85). -/

namespace Sys2Proof.Machine

/-- Every GUM output shows its open segments (R82). -/
def State.GumShows (s : State) : Prop :=
  ∀ v : Fin 4, s.sched.outputs.gum[v.val] = (s.config.channels.valves[v.val].enable && !s.sched.segments[v.val].isEmpty)

/-- A segment is open only in LIVE and MOVING (R80, R81). -/
def State.SegmentsMove (s : State) : Prop :=
  ∀ v : Fin 4, s.sched.segments[v.val] ≠ [] → s.run.runState = .live ∧ s.shaft.motion = .moving

/-- What stands of the outputs in a phase: the GUM outputs follow the segments but within an event, at whose end they are set. -/
def OutputsKept (a : Phase) (s : State) : Prop := (¬a.Fires → s.GumShows) ∧ s.OutputsFollow ∧ s.QuietInOff

theorem not_fires_between : ¬Phase.between.Fires := by simp [Phase.Fires]

theorem outputsLawful_iff (s : State) : s.OutputsLawful ↔ s.SegmentsMove ∧ OutputsKept .between s := by
  have hne : ¬Phase.between.Fires := not_fires_between
  simp only [OutputsKept, State.OutputsLawful, State.GumFollows, State.GumShows, State.SegmentsMove, hne, not_false_eq_true, true_implies]
  tauto

section Segments

variable {who : Origin} {a b : Phase} {s t : State}

/-! ## The open segments -/

theorem segmentsMove_congr (h : s.SegmentsMove) (hs : t.sched.segments = s.sched.segments)
    (hr : t.run.runState = s.run.runState) (hm : t.shaft.motion = s.shaft.motion) : t.SegmentsMove := by
  simpa only [State.SegmentsMove, hs, hr, hm] using h

theorem segmentsMove_of_none (hs : ∀ v : Fin 4, s.sched.segments[v.val] = []) : s.SegmentsMove :=
  fun v hv => absurd (hs v) hv

theorem segments_eq_nil (h : s.SegmentsMove) (hr : s.run.runState ≠ .live) (v : Fin 4) : s.sched.segments[v.val] = [] := by
  by_contra hne
  exact hr (h v hne).1

/-- The shaft counter changes: at rest no segment is open. -/
theorem segmentsMove_shaft (h : s.SegmentsMove) {x : Shaft}
    (hm : x.motion = .atRest → s.shaft.motion = .atRest ∨ s.run.runState ≠ .live ∨ ∀ v : Fin 4, s.sched.segments[v.val] = []) :
    { s with shaft := x }.SegmentsMove := by
  intro v hv
  obtain ⟨hlive, hmoving⟩ := h v hv
  refine ⟨hlive, ?_⟩
  cases hx : x.motion with
  | moving => rfl
  | atRest =>
    obtain hrest | hnot | hnone := hm hx
    · rw [hrest] at hmoving; cases hmoving
    · exact absurd hlive hnot
    · exact absurd (hnone v) hv

theorem segmentsMove_setSegments (h : s.SegmentsMove) (v : Fin 4) {xs : List SegmentInstance}
    (hx : xs ≠ [] → s.sched.segments[v.val] ≠ [] ∨ s.run.runState = .live ∧ s.shaft.motion = .moving) :
    (s.setSegments v xs).SegmentsMove := by
  intro w hw
  by_cases hv : v = w
  · subst hv
    have hxs : xs ≠ [] := by simpa [State.setSegments] using hw
    obtain hopen | hmoves := hx hxs
    · exact h v hopen
    · exact hmoves
  · have hne : v.val ≠ w.val := fun he => hv (Fin.ext he)
    exact h w (by simpa [State.setSegments, hne] using hw)

theorem startPulse_keeps (ch : PulseChannel) (s : State) :
    (startPulse ch s).sched.outputs.gum = s.sched.outputs.gum ∧ (startPulse ch s).sched.segments = s.sched.segments := by
  cases ch <;> unfold startPulse <;> dsimp only <;> split <;> exact ⟨rfl, rfl⟩

theorem endPulse_segments (ch : PulseChannel) (s : State) : (endPulse ch s).sched.segments = s.sched.segments := by
  cases ch <;> rfl

theorem segmentsMove_move (hm : Move who a s b t) (h : s.SegmentsMove) : t.SegmentsMove := by
  cases hm
  case shaft hh hm => exact segmentsMove_shaft h hm
  case live => exact fun v hv => ⟨rfl, (h v hv).2⟩
  case fault => exact segmentsMove_of_none fun v => by simp [State.faulted, leaveLive]
  case segment v xs ha hx => exact segmentsMove_setSegments h v hx
  case closeAll => exact segmentsMove_of_none fun v => by simp [closeSegments]
  case start hr hi => exact segmentsMove_of_none fun v => segments_eq_nil h (by rw [hr]; decide) v
  case reset => exact segmentsMove_of_none fun v => by simp [State.resetTo, Sched.runReset]
  case pulse ch hr => exact segmentsMove_congr h (startPulse_keeps ch s).2 (by simp) (by simp)
  case pulseEnd ch => exact segmentsMove_congr h (endPulse_segments ch s) (by simp) (by simp)
  case spliceSeen => exact segmentsMove_congr h (by simp) (by simp) (by simp)
  all_goals exact segmentsMove_congr h rfl rfl rfl

theorem segmentsMove_moves {n : Nat} (hm : Moves who n a s b t) (h : s.SegmentsMove) : t.SegmentsMove :=
  hm.preserves (Inv := fun _ => State.SegmentsMove) (fun _ _ _ _ => segmentsMove_move)
    (fun _ _ _ _ h => segmentsMove_congr h rfl rfl rfl) h

end Segments

/-! ## The outputs -/

section Kept

variable {who : Origin} {a b : Phase} {s t : State}

/-- The laws speak of the scheduler, the configuration and the run state. -/
theorem outputsKept_congr (h : OutputsKept a s) (hs : t.sched = s.sched) (hc : t.config = s.config)
    (hr : t.run.runState = s.run.runState) : OutputsKept a t := by
  simpa only [OutputsKept, State.GumShows, State.OutputsFollow, State.QuietInOff, hs, hc, hr] using h

theorem outputsKept_fault (h : OutputsKept .between s) (kind : FaultKind) (detail : Int) :
    OutputsKept .between (s.faulted kind detail) := by
  obtain ⟨-, hout, -⟩ := h
  exact ⟨fun _ v => by simp [State.faulted, leaveLive], hout, nofun⟩

theorem outputsKept_leave (hseg : s.SegmentsMove) (h : OutputsKept .within s) : OutputsKept .between (setValveOutputs s) := by
  obtain ⟨-, hout, hquiet⟩ := h
  refine ⟨fun _ v => setValveOutputs_gum s v, hout, fun hoff => ?_⟩
  obtain ⟨hpatch, hcamera, hkick, hgate, hinactive⟩ := hquiet hoff
  have hnotlive : s.run.runState ≠ .live := by
    rw [show s.run.runState = .off from hoff]
    decide
  have hlevel (v : Fin 4) : valveLevel s v = false := by simp [valveLevel, segments_eq_nil hseg hnotlive v]
  refine ⟨hpatch, hcamera, hkick, hgate, ?_⟩
  simp only [setValveOutputs, hinactive, hlevel]
  rfl

/-- In LIVE a pulse or the gate level changes with its output. -/
theorem outputsKept_of_live (h : OutputsKept a s) (hr : t.run.runState = .live) (hg : t.sched.outputs.gum = s.sched.outputs.gum)
    (hs : t.sched.segments = s.sched.segments) (hc : t.config = s.config) (hout : t.OutputsFollow) : OutputsKept a t := by
  obtain ⟨hgum, -, -⟩ := h
  refine ⟨fun ha => ?_, hout, fun hoff => by rw [hr] at hoff; cases hoff⟩
  simpa only [State.GumShows, hg, hs, hc] using hgum ha

theorem startPulse_outputsFollow (h : s.OutputsFollow) (ch : PulseChannel) : (startPulse ch s).OutputsFollow := by
  obtain ⟨hpatch, hcamera, hkick, hgate⟩ := h
  cases ch <;> unfold startPulse <;> dsimp only <;> split
  · exact ⟨rfl, hcamera, hkick, hgate⟩
  · exact ⟨hpatch, hcamera, hkick, hgate⟩
  · exact ⟨hpatch, rfl, hkick, hgate⟩
  · exact ⟨hpatch, hcamera, hkick, hgate⟩
  · exact ⟨hpatch, hcamera, rfl, hgate⟩
  · exact ⟨hpatch, hcamera, hkick, hgate⟩

theorem outputsKept_pulseEnd (h : OutputsKept a s) (ch : PulseChannel) : OutputsKept a (endPulse ch s) := by
  obtain ⟨hgum, ⟨hpatch, hcamera, hkick, hgate⟩, hquiet⟩ := h
  cases ch
  case patch =>
    refine ⟨hgum, ⟨rfl, hcamera, hkick, hgate⟩, fun hoff => ?_⟩
    obtain ⟨-, hc, hk, hg, ho⟩ := hquiet hoff
    exact ⟨rfl, hc, hk, hg, by simp only [endPulse, ho]; rfl⟩
  case camera =>
    refine ⟨hgum, ⟨hpatch, rfl, hkick, hgate⟩, fun hoff => ?_⟩
    obtain ⟨hp, -, hk, hg, ho⟩ := hquiet hoff
    exact ⟨hp, rfl, hk, hg, by simp only [endPulse, ho]; rfl⟩
  case kick =>
    refine ⟨hgum, ⟨hpatch, hcamera, rfl, hgate⟩, fun hoff => ?_⟩
    obtain ⟨hp, hc, -, hg, ho⟩ := hquiet hoff
    exact ⟨hp, hc, rfl, hg, by simp only [endPulse, ho]; rfl⟩

/-- In OFF nothing is active, whatever the channel table comes to say. -/
theorem outputsKept_config (hseg : s.SegmentsMove) (h : OutputsKept .between s) (hr : s.run.runState = .off) (c : MachineConfig) :
    OutputsKept .between { s with config := c } := by
  obtain ⟨hgum, ⟨hpatch, hcamera, hkick, hgate⟩, hquiet⟩ := h
  obtain ⟨-, -, -, hlevel, -⟩ := hquiet hr
  have hnil (v : Fin 4) : s.sched.segments[v.val] = [] := segments_eq_nil hseg (by rw [hr]; decide) v
  refine ⟨fun _ v => ?_, ⟨hpatch, hcamera, hkick, ?_⟩, hquiet⟩
  · simpa [hnil v] using hgum not_fires_between v
  · simpa [hlevel] using hgate

theorem outputsKept_reset (s : State) : OutputsKept .between (s.resetTo []) := by
  refine ⟨fun _ v => ?_, ⟨rfl, rfl, rfl, rfl⟩, fun _ => ⟨rfl, rfl, rfl, rfl, rfl⟩⟩
  simp [State.resetTo, Sched.runReset, Outputs.inactive]

theorem outputsKept_move (hm : Move who a s b t) (hseg : s.SegmentsMove) (h : OutputsKept a s) : OutputsKept b t := by
  cases hm
  case home =>
    obtain ⟨hgum, hrest⟩ := h
    exact ⟨fun _ => hgum not_fires_between, hrest⟩
  case live => exact ⟨fun ha => absurd (.inl rfl) ha, h.2.1, nofun⟩
  case fault kind detail hh => exact outputsKept_fault h kind detail
  case enter => exact ⟨fun ha => absurd (.inl rfl) ha, h.2⟩
  case leave => exact outputsKept_leave hseg h
  case segment v xs ha hx => exact ⟨fun hn => absurd ha hn, h.2⟩
  case closeAll => exact ⟨fun ha => absurd (.inl rfl) ha, h.2⟩
  case pulse ch hr =>
    obtain ⟨hg, hs⟩ := startPulse_keeps ch s
    exact outputsKept_of_live h (by simpa using hr) hg hs (by simp) (startPulse_outputsFollow h.2.1 ch)
  case pulseEnd ch => exact outputsKept_pulseEnd h ch
  case gate level hr =>
    obtain ⟨hpatch, hcamera, hkick, -⟩ := h.2.1
    exact outputsKept_of_live h hr rfl rfl rfl ⟨hpatch, hcamera, hkick, rfl⟩
  case config hr hc => exact outputsKept_config hseg h hr _
  case start => exact ⟨h.1, h.2.1, nofun⟩
  case reset => exact outputsKept_reset s
  case spliceSeen => exact outputsKept_congr h (by simp) (by simp) (by simp)
  case slots => exact h
  all_goals exact outputsKept_congr h rfl rfl rfl

end Kept

/-- Settles O56, change by change; within an event the GUM outputs are not set yet. -/
theorem stepsKeepOutputsLawful : Obligations.StepsKeepOutputsLawful := by
  intro s t h hstep
  rw [outputsLawful_iff] at h ⊢
  obtain ⟨a, b, u, -, hreset⟩ | ⟨who, hm, -⟩ := step_cases_moves hstep
  · obtain ⟨-, -, hsched, -, -, hrun, hconfig, hshaft⟩ := hardwareReset_blocks hreset
    obtain ⟨hseg, hkept⟩ := (outputsLawful_iff _).mp reset_outputsLawful
    exact ⟨segmentsMove_congr hseg (by rw [hsched]) (by rw [hrun]) (by rw [hshaft]),
      outputsKept_congr hkept hsched hconfig (by rw [hrun])⟩
  · exact hm.preserves (Inv := fun a s => s.SegmentsMove ∧ OutputsKept a s)
      (fun _ _ _ _ hm h => ⟨segmentsMove_move hm h.1, outputsKept_move hm h.1 h.2⟩)
      (fun _ _ _ _ h => ⟨segmentsMove_congr h.1 rfl rfl rfl, outputsKept_congr h.2 rfl rfl rfl⟩) h

end Sys2Proof.Machine
end

section
/-! PROOFS. Every step keeps the corrections within their configured maximum (R97, R105). -/

namespace Sys2Proof.Machine

section Kept

variable {who : Origin} {a b : Phase} {s t : State}

theorem valuesClamped_congr (h : s.ValuesClamped) (hg : t.reg = s.reg) (hc : t.config = s.config)
    (hr : t.run.runState = .off → s.run.runState = .off) : t.ValuesClamped := by
  obtain ⟨hval, hoff⟩ := h
  refine ⟨fun ch => ?_, fun ht => hg.trans (hoff (hr ht))⟩
  have hch : t.channel ch = s.channel ch := congrArg (fun x : RegisterMonitor => x.get ch) hg
  rw [hch, hc]
  exact hval ch

theorem value_reset (ch : RegChannel) : (RegisterMonitor.reset.get ch).value = 0 := by cases ch <;> rfl

theorem valuesClamped_move (hm : Move who a s b t) (h : s.ValuesClamped) : t.ValuesClamped := by
  cases hm
  case monitor x hr hx =>
    obtain ⟨hval, -⟩ := h
    refine ⟨fun ch => ?_, fun hoff => absurd (hr.symm.trans hoff) (by decide)⟩
    obtain hsame | hclamped := hx ch
    · exact (congrArg Int.natAbs hsame).trans_le (hval ch)
    · exact hclamped
  case fault kind detail hh =>
    obtain ⟨hval, -⟩ := h
    exact ⟨fun ch => by cases ch; exacts [hval .print, hval .patch], fun hoff => by cases hoff⟩
  case config hr hc =>
    obtain ⟨-, hoff⟩ := h
    refine ⟨fun ch => ?_, hoff⟩
    have hzero : (s.channel ch).value = 0 := by
      unfold State.channel
      rw [hoff hr, value_reset]
    exact le_of_eq_of_le (congrArg Int.natAbs hzero) (Nat.zero_le _)
  case reset =>
    refine ⟨fun ch => ?_, fun _ => rfl⟩
    exact le_of_eq_of_le (congrArg Int.natAbs (value_reset ch)) (Nat.zero_le _)
  case live => exact valuesClamped_congr h rfl rfl nofun
  case start => exact valuesClamped_congr h rfl rfl nofun
  case pulse ch => exact valuesClamped_congr h (by simp) (by simp) (by simp)
  case pulseEnd ch => exact valuesClamped_congr h (by simp) (by simp) (by simp)
  case spliceSeen => exact valuesClamped_congr h (by simp) (by simp) (by simp)
  all_goals exact valuesClamped_congr h rfl rfl id

end Kept

/-- Settles O60, change by change: the integrator clamps, and only LIVE integrates. -/
theorem stepsKeepCorrectionsClamped : Obligations.StepsKeepCorrectionsClamped := by
  intro s t h hstep
  obtain ⟨a, b, u, -, hreset⟩ | ⟨who, hm, -⟩ := step_cases_moves hstep
  · obtain ⟨-, -, -, hreg, -, hrun, hconfig, -⟩ := hardwareReset_blocks hreset
    exact valuesClamped_congr reset_valuesClamped hreg hconfig fun hoff => by rwa [hrun] at hoff
  · exact hm.preserves (Inv := fun _ => State.ValuesClamped) (fun _ _ _ _ => valuesClamped_move)
      (fun _ _ _ _ h => valuesClamped_congr h rfl rfl id) h

end Sys2Proof.Machine
end

section
/-! PROOFS. Every step keeps the profile slots lawful (R21, R27, R29). -/

namespace Sys2Proof.Machine

/-! ## Slots after a change of one of them -/

section OneSlot

variable {p : Profiles} {i : Fin 4} {x : SlotState}

theorem state_setState (p : Profiles) (i j : Fin 4) (x : SlotState) :
    ((p.setState i x).slot j).state = if j = i then x else (p.slot j).state := by
  split
  · next h => rw [h, setState_slot_self]
  · next h => rw [setState_slot_of_ne p x h]

theorem slot_withArm (p : Profiles) (arm : Option ChangeoverArm) (j : Fin 4) : { p with arm := arm }.slot j = p.slot j := rfl

/-- A slot that keeps its content stays signed, unless it becomes EMPTY or was so (R21, R27). -/
theorem signed_setState (h : p.Signed) (hx : x ≠ .empty) (hi : (p.slot i).state ≠ .empty) : (p.setState i x).Signed := by
  intro j
  by_cases hj : j = i
  · subst hj
    obtain ⟨hempty, hsigned⟩ := h j
    rw [setState_slot_self]
    exact ⟨⟨fun he => absurd he hx, fun hc => absurd (hempty.mpr hc) hi⟩, hsigned⟩
  · rw [setState_slot_of_ne p x hj]
    exact h j

theorem signed_setSlot (h : p.Signed) {y : ProfileSlot} (hy : y.state = .empty ↔ y.content = none)
    (hs : y.signature = y.content.map fun c => crc16 c.image) : (p.setSlot i y).Signed := by
  intro j
  by_cases hj : j = i
  · subst hj
    rw [setSlot_profile_self]
    exact ⟨hy, hs⟩
  · rw [setSlot_profile_of_ne p y hj]
    exact h j

theorem state_setSlot (p : Profiles) (i j : Fin 4) (y : ProfileSlot) :
    ((p.setSlot i y).slot j).state = if j = i then y.state else (p.slot j).state := by
  split
  · next h => rw [h, setSlot_profile_self]
  · next h => rw [setSlot_profile_of_ne p y h]

theorem state_of_retiring (h : p.retiring = some i) : (p.slot i).state = .retiring := by
  simpa using List.find?_some h

theorem state_of_staged (h : p.staged = some i) : (p.slot i).state = .staged := by
  simpa using List.find?_some h

theorem not_staged_of_not_busy (h : p.busy = false) (j : Fin 4) :
    (p.slot j).state ≠ .staged ∧ (p.slot j).state ≠ .retiring := by
  have hmem : j ∈ ([0, 1, 2, 3] : List (Fin 4)) := by revert j; decide
  simpa using List.any_eq_false.mp h j hmem

/-- The ACTIVE slot, where there is one. -/
theorem active_eq_some (h : (p.slot i).state = .active) : ∃ j, p.active = some j ∧ (p.slot j).state = .active := by
  cases hf : p.active with
  | none =>
    have hmem : ∀ j : Fin 4, j ∈ ([0, 1, 2, 3] : List (Fin 4)) := by decide
    exact absurd h (by simpa [Profiles.slot] using List.find?_eq_none.mp hf i (hmem i))
  | some j => exact ⟨j, rfl, by simpa [Profiles.slot] using List.find?_some hf⟩

end OneSlot

/-! ## Change by change -/

section Kept

variable {who : Origin} {a b : Phase} {s t : State}

theorem slotsLawful_congr (h : s.SlotsLawful) (hs : ∀ i, t.profiles.slot i = s.profiles.slot i)
    (ha : t.profiles.arm.map ChangeoverArm.slot = s.profiles.arm.map ChangeoverArm.slot)
    (hr : t.run.runState = .off ↔ s.run.runState = .off) : t.SlotsLawful := by
  obtain ⟨hone, hsigned, harm, hactive⟩ := h
  refine ⟨?_, ?_, ?_, ?_⟩
  · simpa only [Profiles.OneEach, Profiles.AtMostOne, hs] using hone
  · simpa only [Profiles.Signed, hs] using hsigned
  · simpa only [Profiles.ArmHoldsStaged, hs, ha] using harm
  · simpa only [State.ActiveOutsideOff, hs, ne_eq, hr] using hactive

theorem not_off_of_inUse (h : s.SlotsLawful) {i : Fin 4} (hi : (s.profiles.slot i).state.inUse = true) : s.run.runState ≠ .off := by
  intro hoff
  obtain ⟨-, -, -, hready, -⟩ := h
  obtain he | he := hready hoff i <;> rw [he] at hi <;> cases hi

/-- A RETIRING slot becomes READY (R34). -/
theorem slotsLawful_retire (h : s.SlotsLawful) {i : Fin 4} (hi : s.profiles.retiring = some i) :
    { s with profiles := s.profiles.setState i .ready }.SlotsLawful := by
  have hstate := state_of_retiring hi
  obtain ⟨⟨hact, hstg, hret, hnot⟩, hsigned, harm, hoff, hlive⟩ := h
  refine ⟨⟨fun j k => ?_, fun j k => ?_, fun j k => ?_, fun j k => ?_⟩, signed_setState hsigned nofun (by simp [hstate]),
    fun j => ?_, fun hr j => ?_, fun hr => ?_⟩
  · have := hact j k
    simp only [state_setState]
    grind
  · have := hstg j k
    simp only [state_setState]
    grind
  · have := hret j k
    simp only [state_setState]
    grind
  · have := hnot j k
    simp only [state_setState]
    grind
  · have := harm j
    simp only [state_setState, setState_arm]
    grind
  · have := hoff hr j
    simp only [state_setState]
    grind
  · obtain ⟨j, hj⟩ := hlive hr
    refine ⟨j, ?_⟩
    simp only [state_setState]
    grind

/-- The staged slot becomes ACTIVE, the active one RETIRING, and the arm is cleared (R33). -/
theorem slotsLawful_changeover (h : s.SlotsLawful) {arm : ChangeoverArm} (ha : s.profiles.arm = some arm) :
    { s with profiles := s.profiles.changedOver arm }.SlotsLawful := by
  have hstaged : (s.profiles.slot arm.slot).state = .staged := by
    obtain ⟨-, -, harm, -⟩ := h
    exact (harm arm.slot).mpr (by rw [ha]; rfl)
  have hnotoff := not_off_of_inUse h (i := arm.slot) (by rw [hstaged]; rfl)
  obtain ⟨⟨hact, hstg, hret, hnot⟩, hsigned, harm, hoff, hlive⟩ := h
  obtain ⟨i, hi⟩ := hlive hnotoff
  obtain ⟨k, hk, hkstate⟩ := active_eq_some hi
  have hover : s.profiles.changedOver arm
      = { (s.profiles.setState k .retiring).setState arm.slot .active with arm := none } := by
    unfold Profiles.changedOver
    rw [hk]
  have hstate (j : Fin 4) : ((s.profiles.changedOver arm).slot j).state
      = if j = arm.slot then .active else if j = k then .retiring else (s.profiles.slot j).state := by
    rw [hover, slot_withArm, state_setState, state_setState]
  have hne : arm.slot ≠ k := by
    intro he
    rw [he, hkstate] at hstaged
    cases hstaged
  have hnoneretiring (j : Fin 4) : (s.profiles.slot j).state ≠ .retiring := hnot _ j hstaged
  refine ⟨⟨fun j l => ?_, fun j l => ?_, fun j l => ?_, fun j l => ?_⟩, ?_, fun j => ?_, fun hr => absurd hr hnotoff, fun _ => ?_⟩
  · have := hact j k
    have := hact l k
    simp only [hstate]
    grind
  · have := hstg j arm.slot
    simp only [hstate]
    grind
  · have := hnoneretiring j
    have := hnoneretiring l
    simp only [hstate]
    grind
  · have := hstg j arm.slot
    simp only [hstate]
    grind
  · have hfirst := signed_setState hsigned (i := k) (x := .retiring) nofun (by simp [hkstate])
    rw [hover]
    exact signed_setState hfirst nofun (by simp [hne, hstaged])
  · have := hstg j arm.slot
    have hnone : (s.profiles.changedOver arm).arm = none := by rw [hover]
    simp only [hstate, hnone]
    grind
  · exact ⟨arm.slot, by simp [hstate]⟩

theorem slotsLawful_spliceSeen (h : s.SlotsLawful) : (markSpliceSeen s).SlotsLawful := by
  refine slotsLawful_congr h (fun i => ?_) ?_ (by simp)
  · unfold markSpliceSeen
    split <;> rfl
  · unfold markSpliceSeen
    split
    · next ha => rw [ha]; rfl
    · rfl

/-- A slot that is not in use takes an EMPTY or READY content (R24, R26). -/
theorem slotsLawful_setSlot (h : s.SlotsLawful) {i : Fin 4} (hi : (s.profiles.slot i).state.inUse = false) {y : ProfileSlot}
    (hy : y.state = .empty ↔ y.content = none) (hs : y.signature = y.content.map fun c => crc16 c.image)
    (hu : y.state = .empty ∨ y.state = .ready) : { s with profiles := s.profiles.setSlot i y }.SlotsLawful := by
  have hnot (x : SlotState) (hx : x.inUse = true) : (s.profiles.slot i).state ≠ x ∧ y.state ≠ x := by
    refine ⟨fun he => ?_, fun he => ?_⟩
    · rw [he, hx] at hi; cases hi
    · obtain hu | hu := hu <;> rw [he.symm.trans hu] at hx <;> cases hx
  have hstate (x : SlotState) (hx : x.inUse = true) (j : Fin 4) :
      ((s.profiles.setSlot i y).slot j).state = x ↔ (s.profiles.slot j).state = x := by
    obtain ⟨h1, h2⟩ := hnot x hx
    rw [state_setSlot]
    by_cases hj : j = i
    · subst hj; simp [h1, h2]
    · simp [hj]
  obtain ⟨⟨hact, hstg, hret, hnone⟩, hsigned, harm, hoff, hlive⟩ := h
  refine ⟨⟨?_, ?_, ?_, ?_⟩, signed_setSlot hsigned hy hs, ?_, fun hr j => ?_, fun hr => ?_⟩
  · simpa only [Profiles.AtMostOne, hstate .active rfl] using hact
  · simpa only [Profiles.AtMostOne, hstate .staged rfl] using hstg
  · simpa only [Profiles.AtMostOne, hstate .retiring rfl] using hret
  · simpa only [ne_eq, hstate .staged rfl, hstate .retiring rfl] using hnone
  · intro j
    rw [hstate _ rfl]
    exact harm j
  · rw [state_setSlot]
    split
    · exact hu
    · exact hoff hr j
  · obtain ⟨j, hj⟩ := hlive hr
    exact ⟨j, (hstate _ rfl j).mpr hj⟩

/-- A READY slot becomes STAGED with an arm, where no slot is STAGED or RETIRING (R29). -/
theorem slotsLawful_arm (h : s.SlotsLawful) {i : Fin 4} (tr : Trigger) (hr : s.run.runState ≠ .off) (hb : s.profiles.busy = false)
    (hi : (s.profiles.slot i).state = .ready) :
    { s with profiles := { s.profiles.setState i .staged with arm := some ⟨i, tr⟩ } }.SlotsLawful := by
  have hquiet := not_staged_of_not_busy hb
  obtain ⟨⟨hact, -, -, -⟩, hsigned, -, -, hlive⟩ := h
  refine ⟨⟨fun j k => ?_, fun j k => ?_, fun j k => ?_, fun j k => ?_⟩, signed_setState hsigned nofun (by simp [hi]),
    fun j => ?_, fun hoff => absurd hoff hr, fun _ => ?_⟩
  · have := hact j k
    simp only [slot_withArm, state_setState]
    grind
  · have := (hquiet j).1
    have := (hquiet k).1
    simp only [slot_withArm, state_setState]
    grind
  · have := (hquiet j).2
    simp only [slot_withArm, state_setState]
    grind
  · have := (hquiet k).2
    simp only [slot_withArm, state_setState]
    grind
  · have := (hquiet j).1
    simp only [slot_withArm, state_setState, Option.map_some, Option.some.injEq]
    grind
  · obtain ⟨j, hj⟩ := hlive hr
    refine ⟨j, ?_⟩
    simp only [slot_withArm, state_setState]
    grind

/-- The STAGED slot returns to READY and the arm is cleared (R32). -/
theorem slotsLawful_cancel (h : s.SlotsLawful) {i : Fin 4} (hi : s.profiles.staged = some i) :
    { s with profiles := { s.profiles.setState i .ready with arm := none } }.SlotsLawful := by
  have hstate := state_of_staged hi
  have hnotoff := not_off_of_inUse h (i := i) (by rw [hstate]; rfl)
  obtain ⟨⟨hact, hstg, hret, hnot⟩, hsigned, -, -, hlive⟩ := h
  refine ⟨⟨fun j k => ?_, fun j k => ?_, fun j k => ?_, fun j k => ?_⟩, signed_setState hsigned nofun (by simp [hstate]),
    fun j => ?_, fun hoff => absurd hoff hnotoff, fun hr => ?_⟩
  · have := hact j k
    simp only [slot_withArm, state_setState]
    grind
  · have := hstg j k
    simp only [slot_withArm, state_setState]
    grind
  · have := hret j k
    simp only [slot_withArm, state_setState]
    grind
  · have := hnot j k
    simp only [slot_withArm, state_setState]
    grind
  · have := hstg j i
    simp only [slot_withArm, state_setState, Option.map_none]
    grind
  · obtain ⟨j, hj⟩ := hlive hr
    refine ⟨j, ?_⟩
    simp only [slot_withArm, state_setState]
    grind

/-- START makes the READY slot it names the one slot in use (R28). -/
theorem slotsLawful_start (h : s.SlotsLawful) (hr : s.run.runState = .off) {i : Fin 4} (hi : (s.profiles.slot i).state = .ready) :
    (s.started i).SlotsLawful := by
  obtain ⟨-, hsigned, -, hoff, -⟩ := h
  have hready := hoff hr
  have hstate (j : Fin 4) : ((s.started i).profiles.slot j).state = if j = i then .active else (s.profiles.slot j).state :=
    state_setState s.profiles i j .active
  refine ⟨⟨fun j k => ?_, fun j k => ?_, fun j k => ?_, fun j k => ?_⟩, signed_setState hsigned nofun (by simp [hi]), fun j => ?_,
    nofun, fun _ => ⟨i, by simp [hstate]⟩⟩
  · have := hready j
    have := hready k
    simp only [hstate]
    grind
  · have := hready j
    simp only [hstate]
    grind
  · have := hready j
    simp only [hstate]
    grind
  · have := hready j
    simp only [hstate]
    grind
  · have := hready j
    have hnone : (s.started i).profiles.arm = none := rfl
    simp only [hstate, hnone, Option.map_none]
    grind

/-- RUN_RESET leaves no slot in use, with every content and signature (R36). -/
theorem slotsLawful_reset (h : s.SlotsLawful) : (s.resetTo []).SlotsLawful := by
  have hslot (i : Fin 4) : (s.resetTo []).profiles.slot i
      = { s.profiles.slot i with state := (s.profiles.slot i).state.afterRunReset } := by
    simp [State.resetTo, Profiles.runReset, Profiles.slot]
  have hidle (x : SlotState) : x.afterRunReset = .empty ∧ x = .empty ∨ x.afterRunReset = .ready ∧ x ≠ .empty := by
    cases x <;> simp [SlotState.afterRunReset]
  have harm : (s.resetTo []).profiles.arm = none := rfl
  have hoff : (s.resetTo []).run.runState = .off := rfl
  obtain ⟨-, hsigned, -, -⟩ := h
  refine ⟨⟨fun j k => ?_, fun j k => ?_, fun j k => ?_, fun j k => ?_⟩, fun j => ?_, fun j => ?_, fun _ j => ?_,
    fun hr => absurd hoff hr⟩
  · have := hidle (s.profiles.slot j).state
    simp only [hslot]
    grind
  · have := hidle (s.profiles.slot j).state
    simp only [hslot]
    grind
  · have := hidle (s.profiles.slot j).state
    simp only [hslot]
    grind
  · have := hidle (s.profiles.slot j).state
    simp only [hslot]
    grind
  · obtain ⟨hempty, hsign⟩ := hsigned j
    have := hidle (s.profiles.slot j).state
    simp only [hslot]
    refine ⟨?_, hsign⟩
    grind
  · have := hidle (s.profiles.slot j).state
    simp only [hslot, harm, Option.map_none]
    grind
  · have := hidle (s.profiles.slot j).state
    simp only [hslot]
    grind

theorem slotsLawful_move (hm : Move who a s b t) (hk : RunKept a s) (h : s.SlotsLawful) : t.SlotsLawful := by
  cases hm
  case live =>
    obtain ⟨-, -, hr⟩ := hk
    exact slotsLawful_congr h (fun _ => rfl) rfl (by simp [hr])
  case fault kind detail hh => exact slotsLawful_congr h (fun _ => rfl) rfl (by simpa [State.faulted] using not_off_of_homed hk hh)
  case retire hi => exact slotsLawful_retire h hi
  case changeover ha => exact slotsLawful_changeover h ha
  case spliceSeen => exact slotsLawful_spliceSeen h
  case start hr hi => exact slotsLawful_start h hr hi
  case reset => exact slotsLawful_reset h
  case commit content hi => exact slotsLawful_setSlot h hi (by simp [committedSlot]) rfl (.inr rfl)
  case erase hi => exact slotsLawful_setSlot h hi (by simp) rfl (.inl rfl)
  case arm tr hr hb hi => exact slotsLawful_arm h tr hr hb hi
  case cancel hi => exact slotsLawful_cancel h hi
  case pulse ch => exact slotsLawful_congr h (fun _ => by simp) (by simp) (by simp)
  case pulseEnd ch => exact slotsLawful_congr h (fun _ => by simp) (by simp) (by simp)
  all_goals exact slotsLawful_congr h (fun _ => rfl) rfl Iff.rfl

end Kept

/-- Settles O57, change by change, with the run state beside it (O53). -/
theorem stepsKeepSlotsLawful : Obligations.StepsKeepSlotsLawful := by
  intro s t hrun h hstep
  obtain ⟨a, b, u, -, hreset⟩ | ⟨who, hm, -⟩ := step_cases_moves hstep
  · obtain ⟨hprofiles, -, -, -, -, hr, -⟩ := hardwareReset_blocks hreset
    exact slotsLawful_congr reset_slotsLawful (fun i => by rw [hprofiles]) (by rw [hprofiles]) (by rw [hr])
  · exact (hm.preserves (Inv := fun a s => RunKept a s ∧ s.SlotsLawful)
      (fun _ _ _ _ hm h => ⟨runKept_move hm h.1, slotsLawful_move hm h.1 h.2⟩)
      (fun _ _ _ _ h => ⟨runKept_congr h.1 rfl rfl, slotsLawful_congr h.2 (fun _ => rfl) rfl Iff.rfl⟩) ⟨hrun, h⟩).2

end Sys2Proof.Machine
end

section
/-! PROOFS. Every step keeps the blank records consecutive, bounded by the delivery, and absent in OFF (R41, R42). -/

namespace Sys2Proof.Machine

/-! ## Serials in a row -/

theorem mem_serialsBefore {n x : Serial} {len : Nat} (h : x ∈ serialsBefore n len) :
    ∃ k, 1 ≤ k ∧ k ≤ len ∧ x = n - BitVec.ofNat 32 k := by
  obtain ⟨i, hi, rfl⟩ := List.mem_map.mp h
  have hlt := List.mem_range.mp hi
  exact ⟨len - i, by omega, by omega, rfl⟩

/-- Two serials less than 2^32 apart are different. -/
theorem sub_ofNat_ne {n : Serial} {k l : Nat} (hk : k < 2 ^ 32) (hl : l < 2 ^ 32) (hne : k ≠ l) :
    n - BitVec.ofNat 32 k ≠ n - BitVec.ofNat 32 l := by
  intro h
  have hcancel : BitVec.ofNat 32 k = BitVec.ofNat 32 l := by bv_omega
  have := congrArg BitVec.toNat hcancel
  simp only [BitVec.toNat_ofNat] at this
  omega

theorem serialsBefore_head (n : Serial) (len : Nat) :
    serialsBefore n (len + 1) = (n - BitVec.ofNat 32 (len + 1)) :: serialsBefore n len := by
  have htail := serialsBefore_tail n len
  unfold serialsBefore at htail ⊢
  rw [List.range_succ_eq_map] at htail ⊢
  rw [List.map_cons, List.tail_cons] at htail
  rw [List.map_cons, htail, Nat.sub_zero]

/-- The record one past the delivery is the oldest of one too many, and else not held (R43). -/
theorem filter_serialsBefore (n : Serial) {len d : Nat} (hlen : len ≤ d + 1) (hd : d ≤ 31) :
    ∃ k, k ≤ d + 1 ∧ 1 ≤ k
      ∧ (serialsBefore (n + 1) (len + 1)).filter (fun x => !(x == n - BitVec.ofNat 32 (d + 1))) = serialsBefore (n + 1) k := by
  have hpast : n - BitVec.ofNat 32 (d + 1) = n + 1 - BitVec.ofNat 32 (d + 2) := by
    rw [show d + 2 = (d + 1) + 1 from rfl, BitVec.ofNat_add]
    bv_omega
  have hkept {m : Nat} (hm : m ≤ d + 1) :
      (serialsBefore (n + 1) m).filter (fun x => !(x == n - BitVec.ofNat 32 (d + 1))) = serialsBefore (n + 1) m := by
    refine List.filter_eq_self.mpr fun x hx => ?_
    obtain ⟨k, -, hk, rfl⟩ := mem_serialsBefore hx
    have hne := sub_ofNat_ne (n := n + 1) (k := k) (l := d + 2) (by omega) (by omega) (by omega)
    rw [hpast]
    simpa using hne
  by_cases hfull : len = d + 1
  · refine ⟨d + 1, le_refl _, by omega, ?_⟩
    have hdrop : (!(n + 1 - BitVec.ofNat 32 (d + 1 + 1) == n - BitVec.ofNat 32 (d + 1))) = false := by simp [hpast]
    rw [hfull, serialsBefore_head, List.filter_cons, hdrop]
    exact hkept le_rfl
  · exact ⟨len + 1, by omega, by omega, hkept (by omega)⟩

/-! ## Change by change -/

section Kept

variable {who : Origin} {a b : Phase} {s t : State}

/-- The laws speak of the serials, the high-water cycle, the delivery and the run state. -/
theorem trackLawful_congr (h : s.TrackLawful) (hs : t.track.records.map Blank.serial = s.track.records.map Blank.serial)
    (hn : t.track.nextSerial = s.track.nextSerial) (hw : t.track.highWater = s.track.highWater)
    (hd : t.config.stations.delivery = s.config.stations.delivery)
    (hoff : t.run.runState = .off → s.run.runState = .off ∧ t.track.splicePending = s.track.splicePending)
    (hlive : t.run.runState = .live → s.run.runState = .live) : t.TrackLawful := by
  obtain ⟨⟨hrun, hlen⟩, ⟨hidle, hheld, hnewest⟩, hdel⟩ := h
  have hlength : t.track.records.length = s.track.records.length := by simpa using congrArg List.length hs
  have hnil : t.track.records = [] ↔ s.track.records = [] := by
    rw [← List.length_eq_zero_iff, hlength, List.length_eq_zero_iff]
  refine ⟨⟨?_, ?_⟩, ⟨fun hr => ?_, fun hr => ?_, fun hne => ?_⟩, ?_⟩
  · rw [hs, hn, hlength]; exact hrun
  · rw [hlength, hd]; exact hlen
  · obtain ⟨hr', hsplice⟩ := hoff hr
    obtain ⟨hempty, hwater, hpending⟩ := hidle hr'
    exact ⟨hnil.mpr hempty, hw.trans hwater, hsplice.trans hpending⟩
  · exact fun he => hheld (hlive hr) (hnil.mp he)
  · rw [hw, hn]
    exact hnewest fun he => hne (hnil.mpr he)
  · rw [hd]; exact hdel

theorem serials_updateBlank {n : Serial} {f : Blank → Blank} (hf : ∀ b, (f b).serial = b.serial) (s : State) :
    (s.updateBlank n f).track.records.map Blank.serial = s.track.records.map Blank.serial := by
  rw [updateBlank_records, List.map_map]
  refine List.map_congr_left fun b _ => ?_
  simp only [Function.comp_apply]
  split
  · exact hf b
  · rfl

theorem serials_faulted (s : State) (kind : FaultKind) (detail : Int) :
    (s.faulted kind detail).track.records.map Blank.serial = s.track.records.map Blank.serial := by
  simp only [State.faulted, State.setRun, leaveLive, markFault, List.map_map]
  refine List.map_congr_left fun b _ => ?_
  exact (stepsTo_faultMark b).1.1

/-- The queue is emptied outside LIVE (R52, R55). -/
theorem trackLawful_flush (h : s.TrackLawful) (hr : s.run.runState ≠ .live) :
    { s with track := { s.track with records := [] } }.TrackLawful := by
  obtain ⟨-, ⟨hidle, -, -⟩, hdel⟩ := h
  refine ⟨⟨rfl, Nat.zero_le _⟩, ⟨fun hoff => ?_, fun hlive => absurd hlive hr, fun hne => absurd rfl hne⟩, hdel⟩
  obtain ⟨-, hwater, hpending⟩ := hidle hoff
  exact ⟨rfl, hwater, hpending⟩

/-- The new record joins the end, and one too many goes from the head (R43, R45). -/
theorem trackLawful_create (h : s.TrackLawful) (hr : s.run.runState ≠ .off) (slot : Fin 4) : (s.withCreated slot).TrackLawful := by
  obtain ⟨⟨hrun, hlen⟩, -, hdel⟩ := h
  have hserials : (s.withCreated slot).track.records.map Blank.serial
      = (serialsBefore (s.track.nextSerial + 1) (s.track.records.length + 1)).filter
          fun x => !(x == s.track.nextSerial - BitVec.ofNat 32 (s.config.stations.delivery + 1)) := by
    rw [serialsBefore_succ, ← hrun]
    simp only [State.withCreated, addRecord]
    rw [show [s.track.nextSerial] = [Blank.created s.track.nextSerial slot s.track.splicePending].map Blank.serial from rfl,
      ← List.map_append, List.filter_map]
    rfl
  obtain ⟨k, hk, hpos, hfilter⟩ := filter_serialsBefore s.track.nextSerial hlen hdel
  rw [hfilter] at hserials
  have hlength : (s.withCreated slot).track.records.length = k := by
    simpa [serialsBefore] using congrArg List.length hserials
  have hne : (s.withCreated slot).track.records ≠ [] := by
    intro he
    rw [he] at hlength
    simp at hlength
    omega
  refine ⟨⟨by rw [hserials, hlength]; rfl, by rw [hlength]; exact hk⟩, ⟨fun hoff => absurd hoff hr, fun _ => hne, fun _ => ?_⟩, hdel⟩
  simp [State.withCreated, addRecord]

theorem delivery_write {c : MachineConfig} {x : ConfigSection} {bytes : List Byte} (hc : ∀ b ∈ x.checks c.checkPitch bytes, b = true)
    (hd : c.stations.delivery ≤ 31) : (c.write x bytes).stations.delivery ≤ 31 := by
  cases x
  case stations =>
    have hlast := hc _ (List.mem_map.mpr ⟨7, by simp, rfl⟩)
    simp only [Bool.and_eq_true, decide_eq_true_eq] at hlast
    exact hlast.2
  all_goals exact hd

/-- In OFF no record is held, so that the delivery may change (R41, R184). -/
theorem trackLawful_config (h : s.TrackLawful) (hr : s.run.runState = .off) {x : ConfigSection} {bytes : List Byte}
    (hc : ∀ b ∈ x.checks s.config.checkPitch bytes, b = true) :
    { s with config := s.config.write x bytes }.TrackLawful := by
  obtain ⟨⟨hrun, -⟩, hqueue, hdel⟩ := h
  obtain ⟨hempty, -⟩ := hqueue.1 hr
  exact ⟨⟨hrun, by rw [hempty]; exact Nat.zero_le _⟩, hqueue, delivery_write hc hdel⟩

theorem trackLawful_live (h : s.TrackLawful) (ht : s.config.stations.delivery ≤ 31 → s.track.records ≠ []) (c : CauseSet) :
    (s.setRun .live c).TrackLawful := by
  obtain ⟨hrun, ⟨-, -, hnewest⟩, hdel⟩ := h
  exact ⟨hrun, ⟨nofun, fun _ => ht hdel, hnewest⟩, hdel⟩

theorem trackLawful_reset (h : s.TrackLawful) : (s.resetTo []).TrackLawful := by
  obtain ⟨-, -, hdel⟩ := h
  exact ⟨⟨rfl, Nat.zero_le _⟩, ⟨fun _ => ⟨rfl, rfl, rfl⟩, nofun, fun hne => absurd rfl hne⟩, hdel⟩

theorem trackLawful_move (hm : Move who a s b t) (h : s.TrackLawful) : t.TrackLawful := by
  cases hm
  case live ht => exact trackLawful_live h ht _
  case fault kind detail hh => exact trackLawful_congr h (serials_faulted s kind detail) rfl rfl rfl nofun nofun
  case record n f hs hf =>
    exact trackLawful_congr h (serials_updateBlank hs s) rfl rfl rfl (fun hr => ⟨hr, rfl⟩) id
  case flush hr => exact trackLawful_flush h hr
  case splicePending hr => exact trackLawful_congr h rfl rfl rfl rfl (fun hoff => by rw [hr] at hoff; cases hoff) id
  case start => exact trackLawful_congr h rfl rfl rfl rfl nofun nofun
  case config hr hc => exact trackLawful_config h hr hc
  case reset => exact trackLawful_reset h
  case pulse ch => exact trackLawful_congr h (by simp) (by simp) (by simp) (by simp) (by simp) (by simp)
  case pulseEnd ch => exact trackLawful_congr h (by simp) (by simp) (by simp) (by simp) (by simp) (by simp)
  case spliceSeen => exact trackLawful_congr h (by simp) (by simp) (by simp) (by simp) (by simp) (by simp)
  all_goals exact trackLawful_congr h rfl rfl rfl rfl (fun hr => ⟨hr, rfl⟩) id

end Kept

/-- Settles O58, change by change, with the run state beside it (O53). -/
theorem stepsKeepRecordsConsecutive : Obligations.StepsKeepRecordsConsecutive := by
  intro s t hrun h hstep
  obtain ⟨a, b, u, -, hreset⟩ | ⟨who, hm, -⟩ := step_cases_moves hstep
  · obtain ⟨-, htrack, -, -, -, hr, hconfig, -⟩ := hardwareReset_blocks hreset
    exact trackLawful_congr reset_trackLawful (by rw [htrack]) (by rw [htrack]) (by rw [htrack]) (by rw [hconfig])
      (fun hoff => ⟨rfl, by rw [htrack]⟩) fun hlive => by rw [hr] at hlive; cases hlive
  · exact (hm.preserves (Inv := fun a s => RunKept a s ∧ s.TrackLawful)
      (fun _ _ _ _ hm h => ⟨runKept_move hm h.1, trackLawful_move hm h.2⟩)
      (fun _ _ slot hh h => ⟨runKept_congr h.1 rfl rfl, trackLawful_create h.2 (not_off_of_homed h.1 hh) slot⟩) ⟨hrun, h⟩).2

end Sys2Proof.Machine
end

section
/-! PROOFS. Every step only advances a blank record (R39, R40, R117, R119). -/

namespace Sys2Proof.Machine

theorem Blank.Advances.refl (b : Blank) : b.Advances b :=
  ⟨rfl, rfl, fun _ => rfl, fun _ h => h, fun _ h => h, fun _ h => h, id, List.prefix_refl _, fun _ => rfl, fun _ => rfl⟩

theorem Blank.Advances.trans {b c d : Blank} (h : b.Advances c) (h' : c.Advances d) : b.Advances d := by
  obtain ⟨hserial, hslot, hpresence, hdefects, hprint, hpatch, hcamera, hverdicts, houtcome, hcounted⟩ := h
  obtain ⟨hserial', hslot', hpresence', hdefects', hprint', hpatch', hcamera', hverdicts', houtcome', hcounted'⟩ := h'
  refine ⟨hserial'.trans hserial, hslot'.trans hslot, fun hb => ?_, fun e he => hdefects' e (hdefects e he),
    fun e he => hprint' e (hprint e he), fun e he => hpatch' e (hpatch e he), fun hb => hcamera' (hcamera hb),
    hverdicts.trans hverdicts', fun hb => ?_, fun hb => ?_⟩
  · have hc := hpresence hb
    exact (hpresence' (hc ▸ hb)).trans hc
  · have hc := houtcome hb
    exact (houtcome' (hc ▸ hb)).trans hc
  · have hc := hcounted hb
    exact (hcounted' (hc ▸ hb)).trans hc

theorem lawful_created (n : Serial) (slot : Fin 4) (spliced : Bool) : (Blank.created n slot spliced).Lawful := by
  refine ⟨⟨?_, ?_⟩, ?_, List.nodup_nil⟩
  · simp [Blank.created]
  · simp [Blank.created]
  · simp [Blank.HoldDiverts, Blank.created, DefectSet.empty]

/-- A lawful queue holds one record per serial (R41). -/
theorem find_of_mem {s : State} (h : s.TrackLawful) {b : Blank} (hb : b ∈ s.track.records) : s.track.find b.serial = some b := by
  obtain ⟨⟨hrun, hlen⟩, -, hdel⟩ := h
  have hnodup : (s.track.records.map Blank.serial).Nodup := by
    rw [hrun]
    refine List.Nodup.map_on (fun i hi j hj hij => ?_) List.nodup_range
    have hi' := List.mem_range.mp hi
    have hj' := List.mem_range.mp hj
    by_contra hne
    exact sub_ofNat_ne (by omega) (by omega) (by omega) hij
  cases hf : s.track.find b.serial with
  | none => simpa using List.find?_eq_none.mp hf b hb
  | some c =>
    have hc : c ∈ s.track.records := List.mem_of_find?_eq_some hf
    rw [List.inj_on_of_nodup_map hnodup hc hb (serial_of_find hf)]

/-- The records are lawful, and each that stood in `before` has only advanced. -/
def RecordsKept (before : List Blank) (s : State) : Prop :=
  s.RecordsLawful ∧ ∀ b ∈ before, ∀ later ∈ s.track.records, later.serial = b.serial → b.Advances later

section Kept

variable {who : Origin} {a b : Phase} {s t : State} {before : List Blank}

theorem recordsKept_congr (h : RecordsKept before s) (hr : t.track.records = s.track.records) : RecordsKept before t := by
  simpa only [RecordsKept, State.RecordsLawful, hr] using h

theorem recordsKept_map (h : RecordsKept before s) {g : Blank → Blank} (ht : t.track.records = s.track.records.map g)
    (hg : ∀ b ∈ s.track.records, b.StepsTo (g b)) : RecordsKept before t := by
  obtain ⟨hlawful, hadvance⟩ := h
  refine ⟨fun x hx => ?_, fun b hb x hx hserial => ?_⟩ <;> rw [ht] at hx <;> obtain ⟨c, hc, rfl⟩ := List.mem_map.mp hx
  · exact (hg c hc).2 (hlawful c hc)
  · have hstep := (hg c hc).1
    exact (hadvance b hb c hc (hstep.1.symm.trans hserial)).trans hstep

theorem recordsKept_of_none (ht : t.track.records = []) : RecordsKept before t := by
  refine ⟨fun x hx => ?_, fun b _ x hx => ?_⟩ <;> rw [ht] at hx <;> cases hx

theorem recordsKept_record (h : RecordsKept before s) (htrack : s.TrackLawful) {n : Serial} {f : Blank → Blank}
    (hf : ∀ b, s.track.find n = some b → b.StepsTo (f b)) : RecordsKept before (s.updateBlank n f) := by
  refine recordsKept_map h (updateBlank_records s n f) fun b hb => ?_
  split
  · next hn => exact hf b (hn ▸ find_of_mem htrack hb)
  · exact stepsTo_of_kept rfl rfl (fun _ => rfl) (fun _ h => h) rfl (fun _ h => h) (fun _ h => h) id rfl rfl rfl

theorem recordsKept_create (h : RecordsKept before s) (hnew : ∀ b ∈ before, b.serial ≠ s.track.nextSerial) (slot : Fin 4) :
    RecordsKept before (s.withCreated slot) := by
  obtain ⟨hlawful, hadvance⟩ := h
  have hmem {x : Blank} (hx : x ∈ (s.withCreated slot).track.records) :
      x ∈ s.track.records ∨ x = Blank.created s.track.nextSerial slot s.track.splicePending := by
    have hx' := (List.mem_filter.mp hx).1
    simpa [addRecord] using hx'
  refine ⟨fun x hx => ?_, fun b hb x hx hserial => ?_⟩ <;> obtain hold | rfl := hmem hx
  · exact hlawful x hold
  · exact lawful_created ..
  · exact hadvance b hb x hold hserial
  · exact absurd hserial.symm (hnew b hb)

theorem recordsKept_move (hm : Move who a s b t) (htrack : s.TrackLawful) (h : RecordsKept before s) : RecordsKept before t := by
  cases hm
  case record n f hs hf => exact recordsKept_record h htrack hf
  case fault kind detail hh => exact recordsKept_map h rfl fun b _ => stepsTo_faultMark b
  case flush => exact recordsKept_of_none rfl
  case reset => exact recordsKept_of_none rfl
  case pulse ch => exact recordsKept_congr h (by simp)
  case pulseEnd ch => exact recordsKept_congr h (by simp)
  case spliceSeen => exact recordsKept_congr h (by simp)
  all_goals exact recordsKept_congr h rfl

theorem nextSerial_move (hm : Move who a s b t) : t.track.nextSerial = s.track.nextSerial := by
  cases hm
  case pulse ch => simp
  case pulseEnd ch => simp
  case spliceSeen => simp
  all_goals rfl

end Kept

/-- What a run of `k` creations at most, from a part with the records `before` and the next serial `n`, keeps: so few creations give out
no serial of `before` again. -/
def AdvancesFrom (before : List Blank) (n : Serial) (k : Nat) (a : Phase) (s : State) : Prop :=
  k ≤ 1000 →
    RunKept a s ∧ s.TrackLawful ∧ RecordsKept before s ∧ ∃ j, j ≤ k ∧ s.track.nextSerial = n + BitVec.ofNat 32 j

section Kept

variable {before : List Blank} {n : Serial}

theorem advancesFrom_create (hbefore : ∀ b ∈ before, ∃ i, 1 ≤ i ∧ i ≤ 32 ∧ b.serial = n - BitVec.ofNat 32 i) {k : Nat} {a : Phase}
    {s : State} (hh : s.shaft.homed = true) (h : AdvancesFrom before n k a s) (slot : Fin 4) :
    AdvancesFrom before n (k + 1) a (s.withCreated slot) := by
  intro hk
  obtain ⟨hrun, htrack, hrecords, j, hj, hnext⟩ := h (by omega)
  refine ⟨runKept_congr hrun rfl rfl, trackLawful_create htrack (not_off_of_homed hrun hh) slot,
    recordsKept_create hrecords (fun b hb => ?_) slot, j + 1, by omega, ?_⟩
  · obtain ⟨i, hi, hi', hserial⟩ := hbefore b hb
    rw [hserial, hnext]
    intro he
    have hzero : BitVec.ofNat 32 (j + i) = 0 := by
      rw [BitVec.ofNat_add]
      bv_omega
    have := congrArg BitVec.toNat hzero
    simp only [BitVec.toNat_ofNat, BitVec.ofNat_eq_ofNat] at this
    omega
  · rw [BitVec.ofNat_add, ← BitVec.add_assoc, ← hnext]
    rfl

end Kept

/-- Settles O59, change by change, with the run state and the serials beside it (O53, O58): a record keeps its serial, and a step creates
too few blanks to come back to one. -/
theorem stepsOnlyAdvanceRecords : Obligations.StepsOnlyAdvanceRecords := by
  intro s t hrun htrack hrecords hstep
  have hstart : RecordsKept s.track.records s := by
    refine ⟨hrecords, fun b hb later hl hserial => ?_⟩
    have hsame : some later = some b := by rw [← find_of_mem htrack hl, hserial, find_of_mem htrack hb]
    cases hsame
    exact .refl b
  obtain ⟨a, b, u, -, hreset⟩ | ⟨who, hm, -⟩ := step_cases_moves hstep
  · obtain ⟨-, ht, -⟩ := hardwareReset_blocks hreset
    exact recordsKept_of_none (before := s.track.records) (by rw [ht]; rfl)
  · have hbefore : ∀ b ∈ s.track.records, ∃ i, 1 ≤ i ∧ i ≤ 32 ∧ b.serial = s.track.nextSerial - BitVec.ofNat 32 i := by
      intro b hb
      obtain ⟨⟨hserials, hlen⟩, -, hdel⟩ := htrack
      obtain ⟨i, hi, hi', hserial⟩ := mem_serialsBefore (hserials ▸ List.mem_map_of_mem hb)
      exact ⟨i, hi, by omega, hserial⟩
    have hkept : AdvancesFrom s.track.records s.track.nextSerial (0 + 257) .between t := by
      refine hm.keeps (Inv := AdvancesFrom s.track.records s.track.nextSerial) (k := 0) (fun k a u b v hmove h hk => ?_)
        (fun k a u slot hh h => advancesFrom_create hbefore hh h slot)
        (fun k l a u hkl h hl => ?_) fun _ => ⟨hrun, htrack, hstart, 0, le_rfl, by simp⟩
      · obtain ⟨hr, ht, hc, j, hj, hn⟩ := h hk
        exact ⟨runKept_move hmove hr, trackLawful_move hmove ht, recordsKept_move hmove ht hc, j, hj,
          (nextSerial_move hmove).trans hn⟩
      · obtain ⟨hr, ht, hc, j, hj, hn⟩ := h (by omega)
        exact ⟨hr, ht, hc, j, by omega, hn⟩
    obtain ⟨-, -, hc, -⟩ := hkept (by omega)
    exact hc

end Sys2Proof.Machine
end

section
/-! PROOFS. The step and its queue; the events that an unhomed shaft does not raise; the kick and the ends of the pulses (R1, R4, R7, R79,
R83). -/

namespace Sys2Proof.Machine

/-- Settles O1: it is the step's own case of a queue that holds a command. -/
theorem stepTakesTheFrontCommand : Obligations.StepTakesTheFrontCommand := by
  intro c rest s hs
  unfold step
  rw [hs]

/-! ## The unhomed shaft (R1, R4, R7, R8) -/

theorem quadratureError_of_unhomed {s : State} (h : s.shaft.homed = false) : quadratureError s = s := by
  simp [quadratureError, h]

theorem sampleKind_of_both (sense : EncoderSense) (qa qb : Bool) : sampleKind sense qa qb (!qa) (!qb) = .error := by
  cases qa <;> cases qb <;> rfl

theorem takeIndexEdge_of_unhomed {s : State} (h : s.shaft.homed = false)
    (hidle : s.run.runState = .off ∨ s.shaft.lastDir ≠ .forward) : takeIndexEdge s = s := by
  have hnot : ¬(s.run.runState = .homing ∧ s.shaft.lastDir = .forward) := by
    rintro ⟨hr, hdir⟩
    obtain hoff | hback := hidle
    · rw [hoff] at hr; cases hr
    · exact hback hdir
  simp [takeIndexEdge, h, hnot]

/-- Settles O6, check by check. -/
theorem unhomedShaftRaisesNoFault : Obligations.UnhomedShaftRaisesNoFault := by
  intro s webOk hh swapped
  refine ⟨?_, ?_, ?_, fun hidle => ?_⟩
  · exact congrArg Host.Outcome.next (quadratureError_of_unhomed hh)
  · show Host.Outcome.next (sampleEncoder _ _ { s with webOk := webOk }) = _
    rw [sampleEncoder, sampleKind_of_both]
    exact congrArg Host.Outcome.next (quadratureError_of_unhomed hh)
  · have hnone : s.indexIsMissing = false := by simp [State.indexIsMissing, hh]
    show Host.Outcome.next _ = _
    rw [hnone]
    rfl
  · exact congrArg Host.Outcome.next (takeIndexEdge_of_unhomed (s := { s with webOk := webOk }) hh hidle)

/-! ## The kick and the pulse ends (R79, R83) -/

/-- The kick is fired once: its slot becomes UNARMED (R79). -/
theorem kick_firesOnce {s : State} (h : s.due .kick = true) : s.FiresOnce .kick := by
  refine ⟨h, ?_⟩
  have hphase : ((fireOnce .kick s).slot .kick).phase = .unarmed := by
    simp only [fireOnce, advanceSlot, setSlot_slot_self]
  simp [State.due, hphase]

theorem startPulse_kick_eq (s : State) :
    startPulse .kick s
      = { s with
          sched :=
            if s.config.channels.kick.enable then
              { s.sched with
                kickPulse := some (s.time + s.config.channels.kick.width), outputs := { s.sched.outputs with kick := true } }
            else s.sched } := by
  cases h : s.config.channels.kick.enable <;> simp [startPulse, h]

theorem endPulse_eq (ch : PulseChannel) (s : State) :
    endPulse ch s
      = { s with
          sched :=
            { s.sched with
              patchPulse := if ch = .patch then none else s.sched.patchPulse
              cameraPulse := if ch = .camera then none else s.sched.cameraPulse
              kickPulse := if ch = .kick then none else s.sched.kickPulse
              outputs :=
                { s.sched.outputs with
                  patch := if ch = .patch then false else s.sched.outputs.patch
                  camera := if ch = .camera then false else s.sched.outputs.camera
                  kick := if ch = .kick then false else s.sched.outputs.kick } } } := by
  cases ch <;> rfl

/-- Settles O27: the kick's firing, then a pulse before and at its end time. -/
theorem kickAndPulseEnds : Obligations.KickAndPulseEnds := by
  refine ⟨?_, fun s ch ends hpulse => ⟨fun hbefore => ?_, fun hreached => ?_⟩⟩
  · intro s x c hdue hangle
    show Host.Outcome.next (fireFilled .kick s) = _
    rw [fireFilled_of_firesOnce (kick_firesOnce hdue) hangle]
    show Host.Outcome.next (State.setSlot (startPulse .kick s) _ _) = _
    rw [startPulse_kick_eq]
  · show Host.Outcome.next _ = _
    rw [hpulse]
    simp only [Nat.not_le.mpr hbefore, if_false]
  · show Host.Outcome.next _ = _
    rw [hpulse]
    simp only [hreached, if_true]
    rw [endPulse_eq]

end Sys2Proof.Machine
end

section
/-! PROOFS. The satellite poller's events (chapter 8): rounds, answers, no-answers and discarded transactions. -/

namespace Sys2Proof.Machine

section Transactions

variable {s : State} {x : Transaction}

theorem exec_transactionTimeout (hx : s.sat.transaction = some x) (ht : x.start + 1000 ≤ s.time) :
    exec .transactionTimeout s
      = .next (failTransaction x (x.timedOut s.freeCount) { s with freeCount := s.freeCount + 1 }) := by
  have hat : s.timeoutAt = some (x.start + 1000) := by rw [State.timeoutAt, hx]; rfl
  show Host.Outcome.next _ = _
  rw [hat]
  simp only [ht, if_true, timeOutTransaction, hx]

theorem exec_noAcknowledge (hx : s.sat.transaction = some x) (byte : NackByte) :
    exec (.noAcknowledge byte) s = .next (failTransaction x (refusedPhases x.address x.register byte) s) := by
  show Host.Outcome.next (refuseTransaction byte s) = _
  simp only [refuseTransaction, hx, refused_eq]

/-- A transaction without the discard mark that fails hands its entry one no-answer (R151, R154). -/
theorem failTransaction_of_kept (hd : x.discard = false) (bus : List BusItem) (n : Nat) :
    s.PollEndsWith (failTransaction x bus { s with freeCount := n }) x (s.entry x.entry).unanswered bus := by
  have hfail : failTransaction x bus { s with freeCount := n }
      = endTransaction x bus (changeEntry x.entry (s.entry x.entry).unanswered { s with freeCount := n }) := by
    simp only [failTransaction, hd, unanswered_eq]
    rfl
  rw [hfail]
  exact endTransaction_ends x bus _ s n hd

/-- A discarded transaction that ends reaches no entry (R160). -/
theorem endTransaction_of_discarded (hd : x.discard = true) (bus : List BusItem) (s : State) :
    endTransaction x bus s
      = { s with sat := { s.sat with
          transaction := if s.sat.pollWaiting then s.pollAfter 0 s.sat.round s.time else none, pollWaiting := false, bus := bus } } := by
  rw [endTransaction_eq]
  simp [hd]

theorem failTransaction_of_discarded (hd : x.discard = true) (bus : List BusItem) (s : State) :
    failTransaction x bus s = endTransaction x bus s := by
  simp only [failTransaction, hd, if_true]

end Transactions

/-- Settles O34, end by end: an answer, a refused byte, a timeout. -/
theorem discardedTransactionsReachNoEntry : Obligations.DiscardedTransactionsReachNoEntry := by
  intro s x hx hd ended
  refine ⟨fun hi lo => ?_, fun byte => ?_, fun ht => ?_⟩
  · show Host.Outcome.next (answerTransaction hi lo s) = _
    simp only [answerTransaction, hx, hd, if_true]
    exact congrArg Host.Outcome.next (endTransaction_of_discarded hd ..)
  · rw [exec_noAcknowledge hx, failTransaction_of_discarded hd, endTransaction_of_discarded hd]
  · refine ⟨_, x.timedOut s.freeCount, exec_transactionTimeout hx ht, timedOut_isTimedOut x _, ?_⟩
    rw [failTransaction_of_discarded hd, endTransaction_of_discarded hd]
    rfl

/-- Settles O33: a refused byte and a timeout fail the transaction alike. -/
theorem noAnswersCountTowardOffline : Obligations.NoAnswersCountTowardOffline := by
  intro s x hx hd e failure fails after
  refine ⟨fun byte => ⟨_, exec_noAcknowledge hx byte, ?_⟩, fun ht => ?_⟩
  · exact failTransaction_of_kept hd _ s.freeCount
  · exact ⟨_, x.timedOut s.freeCount, exec_transactionTimeout hx ht, timedOut_isTimedOut x _, failTransaction_of_kept hd _ _⟩

/-! ## Answers (R152, R153) -/

/-- One dwell step: as many opposite answers in a row as the dwell says change the state (R153). -/
theorem dwellStep_eq (dwell : Nat) (opposite : Bool) (other : SatState) (e : SampleEntry) :
    dwellStep dwell opposite other e
      = { e with
          state := if opposite && e.dwell + 1 == dwell then other else e.state
          dwell := if opposite && !(e.dwell + 1 == dwell) then e.dwell + 1 else 0 } := by
  cases opposite with
  | false => rfl
  | true =>
    unfold dwellStep
    by_cases h : e.dwell + 1 = dwell <;> simp [h]

/-- The entry that an answer leaves, by the threshold, the sense and the dwell (R152, R153). -/
theorem answeredEntry_eq (c : SatConfig) (round : Serial) (value : Half) (e : SampleEntry) :
    answeredEntry c round value e = (
      let afresh : Bool := e.state == .unknown || e.state == .offline
      let tripped : Bool := e.state == .tripped
      let opposite : Bool := if tripped then !c.beyond value else c.beyond value
      let dwell := if afresh then 1 else e.dwell + 1
      let turns : Bool := opposite && dwell == c.dwell
      { state := if tripped == turns then .normal else .tripped
        value := some value
        lastGood := some round
        dwell := if opposite && !turns then dwell else 0
        failure := 0 }) := by
  unfold answeredEntry judgeSample asNormal
  cases hstate : e.state with
  | tripped =>
    simp only [dwellStep_eq]
    cases c.beyond value <;> cases h : e.dwell + 1 == c.dwell <;> simp [h]
  | normal =>
    simp only [dwellStep_eq]
    cases c.beyond value <;> cases h : e.dwell + 1 == c.dwell <;> simp [h]
  | unknown =>
    simp only [dwellStep_eq]
    cases c.beyond value <;> cases h : 0 + 1 == c.dwell <;> simp_all
  | offline =>
    simp only [dwellStep_eq]
    cases c.beyond value <;> cases h : 0 + 1 == c.dwell <;> simp_all

/-- Settles O32: the answer ends the read and its entry is judged. -/
theorem answersAreJudgedAgainstTheThreshold : Obligations.AnswersAreJudgedAgainstTheThreshold := by
  intro hi lo s x hx hd c e value beyond afresh tripped opposite dwell turns
  refine ⟨_, rfl, ?_⟩
  have hanswer : answerTransaction hi lo s
      = endTransaction x (readPhases x.address x.register hi lo ++ [.stop])
          (changeEntry x.entry (answeredEntry c s.sat.round value e) s) := by
    simp only [answerTransaction, hx, hd]
    rfl
  rw [hanswer, answeredEntry_eq]
  exact endTransaction_ends x _ _ s s.freeCount hd

/-! ## Rounds (R148, R149) -/

/-- Everything the start of a round does. -/
theorem startRound_eq (s : State) :
    startRound s
      = { s with
          sat :=
            { s.sat with
              round := if s.sat.firstRound.isSome then 0 else s.sat.round + 1, phase := 0, firstRound := none,
              transaction :=
                if s.sat.transaction.isSome then s.sat.transaction
                else s.pollAfter 0 (if s.sat.firstRound.isSome then 0 else s.sat.round + 1) s.time,
              pollWaiting := s.sat.transaction.isSome || s.sat.pollWaiting } } := by
  unfold startRound
  cases hf : s.sat.firstRound <;> cases ht : s.sat.transaction
  · simp [pollFrom_after]
    rfl
  · simp [ht]
  · simp [pollFrom_after]
    rfl
  · simp [ht]

/-- Settles O31: the moment of the next round is the first tick after START, or where the phase reaches 10,000 µs. -/
theorem roundsStartOnTheirRhythm : Obligations.RoundsStartOnTheirRhythm := by
  intro s due round
  have hexec : exec .roundStart s = .next (if s.sat.running && due then startRound s else s) := by
    show Host.Outcome.next _ = _
    congr 1
    unfold State.roundAt
    cases hrun : s.sat.running with
    | false => simp
    | true =>
      cases hfirst : s.sat.firstRound with
      | some t => simp [due, hfirst]
      | none =>
        have hphase : s.time + (10000 - s.sat.phase) ≤ s.time ↔ 10000 ≤ s.sat.phase := by omega
        simp [due, hfirst, hphase]
  refine ⟨fun h => ?_, fun h => ?_⟩
  · rw [hexec, h]
    rfl
  · rw [hexec, h, if_pos rfl, startRound_eq]

end Sys2Proof.Machine
end

section
/-! PROOFS. The shaft counter (chapter 1): counts, encoder faults, the index check, ticks and rest, and the arming of a homing. -/

namespace Sys2Proof.Machine

/-! ## Counts (R1, R2, R10) -/

section Counts

variable {s : State} {a b : Bool}

theorem sampleEncoder_of_same (h : (s.shaft.quadA, s.shaft.quadB) = (a, b)) : sampleEncoder a b s = s := by
  obtain ⟨rfl, rfl⟩ := Prod.mk.inj h
  simp [sampleEncoder, sampleKind]

/-- A sample with one input changed is a count, forward or in reverse (R1). -/
theorem sampleEncoder_of_step (h : ((s.shaft.quadA, s.shaft.quadB), (a, b)) ∈ encoderSteps
      ∨ ((a, b), (s.shaft.quadA, s.shaft.quadB)) ∈ encoderSteps) :
    sampleEncoder a b s
      = if (decide (((s.shaft.quadA, s.shaft.quadB), (a, b)) ∈ encoderSteps) == (s.config.shaft.sense == .normal)) then
          countForward (s.setQuadrature a b) else countReverse (s.setQuadrature a b) := by
  unfold sampleEncoder
  rw [sampleKind_count _ _ _ _ _ h]
  cases decide (((s.shaft.quadA, s.shaft.quadB), (a, b)) ∈ encoderSteps) == (s.config.shaft.sense == .normal) <;> rfl

/-- The part after a forward count, before what it passes is taken (R2, R11). -/
def State.countedForward (s : State) : State :=
  { s with shaft := { s.shaft with position := forwardPosition s, lastDir := .forward, msChange := s.shaft.msChange + 1 } }

theorem countForward_of_missing (h : s.countedForward.indexIsMissing = true) :
    countForward s = missingIndexFault s.countedForward := if_pos h

theorem countForward_of_present (h : s.countedForward.indexIsMissing = false) :
    countForward s = settleEvent (markPassed s.shaft.position s.countedForward) :=
  if_neg (Bool.eq_false_iff.mp h)

theorem indexIsMissing_iff (s : State) :
    s.indexIsMissing = true ↔ s.shaft.homed = true ∧ atOrBeyond s.pitch s.shaft.position s.shaft.lastIndex = true
      ∧ forwardDistance s.pitch s.shaft.position s.shaft.lastIndex = 2 * s.pitch := by
  simp [State.indexIsMissing, and_assoc]

theorem missingIndexFault_eq (h : s.indexIsMissing = true) :
    missingIndexFault s = encoderFault .indexMissing (2 * s.pitch : Nat) s := by
  obtain ⟨-, -, hd⟩ := (indexIsMissing_iff s).mp h
  unfold missingIndexFault
  rw [hd]

end Counts

/-- Settles O4: a count moves the position; a forward one marks what it passed and takes it. -/
theorem countsMoveTheShaft : Obligations.CountsMoveTheShaft := by
  intro a b webOk s before forward m position shaft moved
  refine ⟨fun h => ?_, fun h hnot => ?_⟩
  · exact congrArg Host.Outcome.next (sampleEncoder_of_same (s := { s with webOk := webOk }) h)
  have hexec : exec (.encoderCount a b webOk) s
      = .next (if forward then countForward ({ s with webOk := webOk }.setQuadrature a b)
          else countReverse ({ s with webOk := webOk }.setQuadrature a b)) :=
    congrArg Host.Outcome.next (sampleEncoder_of_step (s := { s with webOk := webOk }) h)
  cases hf : forward with
  | false =>
    have hmoved : countReverse ({ s with webOk := webOk }.setQuadrature a b) = moved := by
      simp only [moved, shaft, position, m, hf]
      unfold countReverse reversePosition
      cases hh : s.shaft.homed <;> simp [State.setQuadrature, hh, modulusOf, State.pitch, Int.sub_eq_add_neg]
    rw [hexec, hf]
    exact ⟨moved, congrArg Host.Outcome.next hmoved, rfl, rfl, rfl, rfl, rfl, rfl, fun _ => rfl, nofun⟩
  | true =>
    have hmoved : ({ s with webOk := webOk }.setQuadrature a b).countedForward = moved := by
      simp only [moved, shaft, position, m, hf]
      unfold State.countedForward forwardPosition
      cases hh : s.shaft.homed <;> simp [State.setQuadrature, hh, modulusOf, State.pitch]
    have hpresent : moved.indexIsMissing = false := by
      rw [Bool.eq_false_iff]
      intro hm
      exact hnot ⟨hf, (indexIsMissing_iff moved).mp hm⟩
    have hcount := countForward_of_present (hmoved ▸ hpresent)
    rw [hmoved] at hcount
    refine ⟨settleEvent (markPassed s.shaft.position moved), ?_, by simp [moved], by simp [moved], by simp [moved], by simp [moved],
      by simp [moved], by simp [moved], nofun, fun _ => ?_⟩
    · rw [hexec, hf]
      exact congrArg Host.Outcome.next hcount
    · exact ⟨_, markPassed_moves _ _, settleEvent_passes _, settleEvent_of_nothingPassed⟩

/-! ## Encoder faults (R7, R8) -/

theorem quadratureError_of_homed {s : State} (h : s.shaft.homed = true) : quadratureError s = encoderFault .quadrature 0 s :=
  if_pos h

/-- R1's cycle leads from one level pair to another in one direction only. -/
theorem encoderSteps_one_way :
    ∀ p q x y : Bool, ((x, y), (p, q)) ∈ encoderSteps → ((p, q), (x, y)) ∉ encoderSteps := by decide

/-- Settles O5, fault by fault. -/
theorem encoderFaultsAreTaken : Obligations.EncoderFaultsAreTaken := by
  intro s webOk hh swapped a slip missing next
  refine ⟨?_, ?_, fun hslip => ?_, fun hdir hmissing => ?_, fun x y hstep hmissing => ?_⟩
  · exact ⟨_, congrArg Host.Outcome.next (quadratureError_of_homed (s := swapped) hh), encoderFault_faults ..⟩
  · refine ⟨_, ?_, encoderFault_faults ..⟩
    show Host.Outcome.next (sampleEncoder _ _ { s with webOk := webOk }) = _
    rw [sampleEncoder, sampleKind_of_both]
    exact congrArg Host.Outcome.next (quadratureError_of_homed (s := { swapped with webOk := webOk }) hh)
  · refine ⟨_, ?_, encoderFault_faults ..⟩
    have hzero : ¬indexSlip s.pitch (s.shaft.position % s.pitch) = 0 := by
      intro h0
      rw [show slip = indexSlip s.pitch (s.shaft.position % s.pitch) from rfl, h0] at hslip
      exact absurd hslip (by decide)
    show Host.Outcome.next (takeIndexEdge { s with webOk := webOk }) = _
    rw [takeIndexEdge, if_pos hh, checkIndex]
    exact congrArg Host.Outcome.next ((if_neg hzero).trans (if_neg (Nat.not_le.mpr hslip)))
  · have hm : s.indexIsMissing = true := (indexIsMissing_iff s).mpr ⟨hh, hmissing⟩
    refine ⟨_, ?_, encoderFault_faults ..⟩
    show Host.Outcome.next _ = _
    rw [hm, hdir]
    exact congrArg Host.Outcome.next (missingIndexFault_eq hm)
  · have hsteps : ((s.shaft.quadA, s.shaft.quadB), (x, y)) ∈ encoderSteps ∨ ((x, y), (s.shaft.quadA, s.shaft.quadB)) ∈ encoderSteps :=
      hstep.imp And.right And.right
    have hforward : (decide (((s.shaft.quadA, s.shaft.quadB), (x, y)) ∈ encoderSteps) == (s.config.shaft.sense == .normal)) = true := by
      obtain ⟨hsense, hin⟩ | ⟨hsense, hin⟩ := hstep
      · simp [hsense, hin]
      · simp [hsense, encoderSteps_one_way _ _ _ _ hin]
    have hmoved : ({ s with webOk := webOk }.setQuadrature x y).countedForward
        = { s with
            webOk := webOk,
            shaft :=
              { s.shaft with quadA := x, quadB := y, position := next, lastDir := .forward, msChange := s.shaft.msChange + 1 } } := by
      simp [State.countedForward, forwardPosition, State.setQuadrature, hh, next, modulusOf, State.pitch]
    have hm : ({ s with webOk := webOk }.setQuadrature x y).countedForward.indexIsMissing = true := by
      rw [hmoved]
      exact (indexIsMissing_iff _).mpr ⟨hh, hmissing⟩
    refine ⟨_, ?_, encoderFault_faults ..⟩
    show Host.Outcome.next (sampleEncoder x y { s with webOk := webOk }) = _
    rw [sampleEncoder_of_step (s := { s with webOk := webOk }) hsteps]
    show Host.Outcome.next (if _ then _ else _) = _
    rw [if_pos hforward, countForward_of_missing hm, missingIndexFault_eq hm, hmoved]
    rfl

/-! ## The index check (R6) -/

/-- Settles O7: a clean edge, a correction backward, a correction forward. -/
theorem indexEdgeCorrectsThePosition : Obligations.IndexEdgeCorrectsThePosition := by
  intro s webOk hh a slip position shaft moved
  have hexec : exec (.indexEdge webOk) s = .next (checkIndex { s with webOk := webOk }) := by
    show Host.Outcome.next (takeIndexEdge { s with webOk := webOk }) = _
    rw [takeIndexEdge, if_pos hh]
  refine ⟨fun hzero => ?_, fun hlow hhigh => ?_⟩
  · rw [hexec, checkIndex]
    exact congrArg Host.Outcome.next (if_pos hzero)
  have hnot : ¬slip = 0 := by
    intro h0
    rw [h0] at hlow
    exact absurd hlow (by decide)
  have hmoved : checkIndex { s with webOk := webOk }
      = if slip < 0 then settleEvent (markPassed s.shaft.position moved) else moved := by
    have hslips : countUpTo 65535 s.shaft.slips = Nat.min 65535 (s.shaft.slips + 1) := countUpTo_eq_min ..
    rw [checkIndex]
    refine (if_neg hnot).trans ((if_pos hhigh).trans ?_)
    simp only [correctPosition, moved, shaft, ← hslips]
    rfl
  by_cases hneg : slip < 0
  · rw [hexec, hmoved, if_pos hneg]
    exact ⟨_, rfl, by simp [moved], by simp [moved], by simp [moved], by simp [moved], by simp [moved], by simp [moved],
      fun hpos => absurd hneg (by omega), fun _ => ⟨_, markPassed_moves _ _, settleEvent_passes _, settleEvent_of_nothingPassed⟩⟩
  · rw [hexec, hmoved, if_neg hneg]
    exact ⟨moved, rfl, rfl, rfl, rfl, rfl, rfl, rfl, fun _ => rfl, fun h => absurd h hneg⟩

/-! ## The arming of a homing (R64, R65) -/

/-- A slot that is armed is ARMED for its cycle with the angle of its blank's profile (R64). -/
theorem armedFor_armed (s : State) (pt : TimedPoint) (c : Serial) :
    ((s.armedFor pt c).slot pt).phase = .armed ∧ ((s.armedFor pt c).slot pt).cycle = c
      ∧ ((s.armedFor pt c).slot pt).serial = c - BitVec.ofNat 32 (stationOf s.config pt)
      ∧ ((s.armedFor pt c).slot pt).angle
        = nominalAngle s.config (s.profileOf (c - BitVec.ofNat 32 (stationOf s.config pt))) pt := by
  unfold State.armedFor retarget
  simp only [setSlot_slot_self, State.aimed]
  split
  · simp
  · split <;> simp

/-- Settles O9: every slot is armed on its own. -/
theorem homingArmsTheSlots : Obligations.HomingArmsTheSlots := by
  intro c0 s
  have harmed := armAtHoming_arms c0 s
  refine ⟨harmed, fun pt => ?_⟩
  obtain ⟨hslots, -⟩ := harmed
  obtain ⟨hleft, hset⟩ := hslots pt
  intro x
  split
  · next h => exact hleft h
  · next h =>
    obtain ⟨hphase, hcycle, hserial, hangle⟩ := armedFor_armed s pt (c0 + BitVec.ofNat 32 (stationOf s.config pt))
    have hc0 : c0 + BitVec.ofNat 32 (stationOf s.config pt) - BitVec.ofNat 32 (stationOf s.config pt) = c0 :=
      BitVec.add_sub_cancel ..
    rw [hc0] at hserial hangle
    rw [show x = _ from hset h]
    exact ⟨hphase, hcycle, hserial, hangle⟩

end Sys2Proof.Machine
end

section
/-! PROOFS. Ticks and rest (R11 to R13, R68, R82). -/

namespace Sys2Proof.Machine

theorem windowSum_eq (xs : List Int) : windowSum xs = xs.sum := List.sum_eq_foldl.symm

/-! ## Ticks (R11, R12, R68) -/

/-- An advance of at most 1 ms ends at its limit. -/
theorem advanceTime_time {limit : Nat} {s : State} (hs : s.time ≤ limit) (hl : limit ≤ s.time + 1000) :
    (advanceTime timedLimit limit s).time = limit := by
  obtain ⟨u, hu, -, he, -⟩ := advanceTime_reaches (fun u => u.time ≤ limit) hl (fun u m hu _ _ hm _ => by
      rw [(takeTimed_frame m.event (u.atMoment m.time)).2.2.2.2.2.2.2.1, atMoment_time]
      omega)
    timedLimit s hs (Nat.le_refl _) (Nat.le_trans (eventsLeft_le _ _ _) (by decide))
  rw [he, atMoment_time]
  omega

/-- With nothing due on the way, an advance only moves the time base and the round phase. -/
theorem advanceTime_of_nothing_due {limit : Nat} {s : State} (h : ∀ m ∈ s.moments, limit < m.time) :
    advanceTime timedLimit limit s = s.atMoment limit := by
  have hnone : earliest limit s.moments = none := by
    have hspec := earliest_spec limit s.moments
    cases he : earliest limit s.moments with
    | none => rfl
    | some m =>
      rw [he] at hspec
      obtain ⟨hm, hle, -⟩ := hspec
      exact absurd (h m hm) (Nat.not_lt.mpr hle)
  show advanceTime 16 limit s = _
  unfold advanceTime
  rw [hnone]
  rfl

/-- Settles O11: the time base moves on to the tick, the shaft counter is updated, and the scheduler takes its part. -/
theorem tickUpdatesSpeedAndMotion : Obligations.TickUpdatesSpeedAndMotion := by
  intro s window w speed c rest motion shaft tick later
  have hle : s.time ≤ tick := by simp only [tick]; omega
  have hlimit : tick ≤ s.time + 1000 := by simp only [tick]; omega
  have hlater : later.shaft = s.shaft ∧ later.config = s.config ∧ later.webOk = s.webOk ∧ later.pending = s.pending := by simp [later]
  obtain ⟨hshaft, hconfig, hweb, hpending⟩ := hlater
  have htime : later.time = tick := advanceTime_time hle hlimit
  have hticked : tickShaft later.config.shaft later.shaft = shaft := by
    rw [hshaft, hconfig, tickShaft, windowSum_eq]
    rfl
  have htick : passTick s
      = scheduleTick (s.shaft.motion == .moving && motion == .atRest) { later with shaft := shaft } := by
    show tickEvent later = _
    rw [tickEvent, hticked, hshaft]
    rfl
  refine ⟨passTick s, rfl, ?_, ?_, ?_, ?_, ?_, ?_, advanceTime_timedTo tick s, advanceTime_quiet hlimit, advanceTime_sched hlimit,
    fun moment hawaits hm => advanceTime_round hle hlimit (roundAt_of_awaits hawaits) hm,
    fun x hx hn => advanceTime_transaction hlimit hx hn, fun hquiet => ?_⟩
  · rw [htick]; simp [htime]
  · rw [htick]; simp
  · rw [htick]; simp [hconfig]
  · rw [htick]; simp [hweb]
  · rw [htick]; simp [hpending]
  · rw [htick]
    exact scheduleTick_schedules _ _
  · rw [show later = s.atMoment tick from advanceTime_of_nothing_due hquiet]
    unfold State.atMoment
    rw [show Nat.max s.time tick = tick from max_eq_right hle]

/-! ## Rest (R13, R82) -/

theorem restDwellReached_iff (s : State) :
    s.restDwellReached = true ↔ s.shaft.motion = .moving ∧ s.shaft.restCounter = s.config.shaft.restDwell
      ∧ s.shaft.window.sum.natAbs < s.config.shaft.creep := by
  simp [State.restDwellReached, windowSum_eq, and_assoc]

/-- At the end of a scheduler's tick that began at rest and without an open segment, no segment is open. -/
theorem segments_settleEvent_of_rest {s : State} (hm : s.shaft.motion = .atRest)
    (hs : ∀ v : Fin 4, s.sched.segments[v.val] = []) (v : Fin 4) : (settleEvent (recomputeAll s)).sched.segments[v.val] = [] := by
  have hstays : Stays ⟨none, false⟩ .within s (recomputeAll s) := recomputeAll_stays s
  have hkept := segmentsMove_moves (settleEvent_moves_within ⟨none, false⟩ _) (segmentsMove_moves hstays (segmentsMove_of_none hs))
  by_contra hne
  have hmoving : (settleEvent (recomputeAll s)).shaft.motion = .moving := (hkept v hne).2
  simp [hm] at hmoving

theorem gum_settleEvent_of_closed {s : State} {v : Fin 4} (h : (settleEvent s).sched.segments[v.val] = []) :
    (settleEvent s).sched.outputs.gum[v.val] = false := by
  have hclosed : (settle 256 s).sched.segments[v.val] = [] := h
  exact (setValveOutputs_gum (settle 256 s) v).trans (by simp [hclosed])

/-- Settles O12: at rest no firing opens a segment, so that the closed segments stay closed to the end of the event. -/
theorem restClosesTheValves : Obligations.RestClosesTheValves := by
  intro s w reached resting
  have hiff : s.restDwellReached = true ↔ reached := restDwellReached_iff s
  have hexec : exec .restDwellExpiry s = .next (if s.restDwellReached then scheduleTick true resting else s) := by
    rfl
  refine ⟨fun h => ?_, fun h hr => ?_, fun h hr => ?_⟩
  · rw [hexec, if_neg (mt hiff.mp h)]
  · rw [hexec, if_pos (hiff.mpr h), (scheduleTick_schedules true resting).1 hr]
  · rw [hexec, if_pos (hiff.mpr h)]
    have htick : scheduleTick true resting = settleEvent (recomputeAll (closeSegments resting)) := if_pos hr
    have hnone : ∀ v : Fin 4, (scheduleTick true resting).sched.segments[v.val] = [] := fun v => by
      rw [htick]
      exact segments_settleEvent_of_rest rfl (fun u => by simp [closeSegments]) v
    refine ⟨_, rfl, by simp, fun v => ⟨hnone v, ?_⟩, scheduleTick_schedules true resting, by simp [resting], by simp [resting],
      by simp [resting], by simp [resting], by simp [resting]⟩
    rw [htick]
    exact gum_settleEvent_of_closed (htick ▸ hnone v)

end Sys2Proof.Machine
end

section
/-! PROOFS. Creation (chapter 3) with the changeover it takes (R33, R34), the removal it brings (R45), and the homing that begins with
it (R4, R162). -/

namespace Sys2Proof.Machine

/-! ## The changeover (R30, R33, R34) -/

section Changeover

variable {s : State} {n : Serial} {arm : ChangeoverArm} {a : Fin 4}

theorem orderOf_congr {p q : Profiles} {i : Fin 4} (h : q.contentOf i = p.contentOf i) : q.orderOf i = p.orderOf i := by
  simp [Profiles.orderOf, h]

theorem changedOver_eq (h : s.profiles.active = some a) (arm : ChangeoverArm) :
    s.profiles.changedOver arm = { (s.profiles.setState a .retiring).setState arm.slot .active with arm := none } := by
  unfold Profiles.changedOver
  rw [h]

theorem changedOver_state (h : s.profiles.active = some a) (arm : ChangeoverArm) (i : Fin 4) :
    ((s.profiles.changedOver arm).slot i).state
      = if i = arm.slot then .active else if i = a then .retiring else (s.profiles.slot i).state := by
  rw [changedOver_eq h, slot_withArm, state_setState, state_setState]

theorem contentOf_changedOver (h : s.profiles.active = some a) (arm : ChangeoverArm) (i : Fin 4) :
    (s.profiles.changedOver arm).contentOf i = s.profiles.contentOf i := by
  rw [changedOver_eq h]
  exact (setState_contentOf ..).trans (setState_contentOf ..)

theorem slot_changedOver_of_ne (h : s.profiles.active = some a) {i : Fin 4} (hi : i ≠ arm.slot) (ha : i ≠ a) :
    (s.profiles.changedOver arm).slot i = s.profiles.slot i := by
  rw [changedOver_eq h, slot_withArm, setState_slot_of_ne _ _ hi, setState_slot_of_ne _ _ ha]

theorem active_state (h : s.profiles.active = some a) : (s.profiles.slot a).state = .active := by
  simpa [Profiles.slot] using List.find?_some h

theorem arm_slot_ne_active (hl : s.SlotsLawful) (harm : s.profiles.arm = some arm) (ha : s.profiles.active = some a) : a ≠ arm.slot := by
  rintro rfl
  obtain ⟨-, -, hholds, -⟩ := hl
  have hstaged : (s.profiles.slot arm.slot).state = .staged := (hholds arm.slot).mpr (by rw [harm]; rfl)
  rw [active_state ha] at hstaged
  cases hstaged

/-- After the take the old slot is the one RETIRING slot (R21, R33). -/
theorem retiring_changedOver (hl : s.SlotsLawful) (harm : s.profiles.arm = some arm) (ha : s.profiles.active = some a) :
    (s.profiles.changedOver arm).retiring = some a := by
  have hne := arm_slot_ne_active hl harm ha
  obtain ⟨⟨-, -, -, hnot⟩, -, hholds, -⟩ := hl
  have hstaged : (s.profiles.slot arm.slot).state = .staged := (hholds arm.slot).mpr (by rw [harm]; rfl)
  refine retiring_eq_some (by rw [changedOver_state ha, if_neg hne, if_pos rfl]) fun j hj => ?_
  rw [changedOver_state ha] at hj
  by_contra hja
  rw [if_neg hja] at hj
  split at hj
  · cases hj
  · exact hnot _ _ hstaged hj

/-- What the take leaves before the retirement check (R33, steps 1 to 4). -/
def State.takenTo (s : State) (arm : ChangeoverArm) (n : Serial) : State :=
  post (.changeover arm.slot (s.profiles.orderOf arm.slot) n) { s with profiles := s.profiles.changedOver arm }

theorem changeoverAt_of_unmet (harm : s.profiles.arm = some arm) (h : arm.trigger.met n = false) : changeoverAt n s = s := by
  simp [changeoverAt, harm, h]

theorem changeoverAt_of_met (harm : s.profiles.arm = some arm) (ha : s.profiles.active = some a) (h : arm.trigger.met n = true) :
    changeoverAt n s = retireCheck (s.takenTo arm n) := by
  have htake : changeoverAt n s = takeChangeover arm n s := by simp [changeoverAt, harm, h]
  have horder : (s.profiles.changedOver arm).orderOf arm.slot = s.profiles.orderOf arm.slot :=
    orderOf_congr (contentOf_changedOver ha arm arm.slot)
  rw [htake, State.takenTo, ← horder]
  rfl

/-- Settles O13: the old slot alone is RETIRING after the take, so that the retirement check is its own. -/
theorem changeoverIsTakenAtACreation : Obligations.ChangeoverIsTakenAtACreation := by
  intro n s
  refine ⟨fun h => by simp [changeoverAt, h], fun arm a hl harm ha => ?_⟩
  intro met carried t
  have hmeteq : met = arm.trigger.met n := by
    simp only [met, Trigger.met]
    cases arm.trigger <;> simp [beq_eq_decide]
  refine ⟨fun hmet => changeoverAt_of_unmet harm (hmeteq ▸ hmet), fun hmet => ?_⟩
  have ht : t = retireCheck (s.takenTo arm n) := changeoverAt_of_met harm ha (hmeteq ▸ hmet)
  have hne := arm_slot_ne_active hl harm ha
  have hretiring : (s.takenTo arm n).profiles.retiring = some a := retiring_changedOver hl harm ha
  have hreferences : (s.takenTo arm n).references a = carried := rfl
  have horder : (s.takenTo arm n).profiles.orderOf a = s.profiles.orderOf a := orderOf_congr (contentOf_changedOver ha arm a)
  have hframe : t.track = s.track ∧ t.batch = s.batch ∧ t.run = s.run ∧ t.sched = s.sched ∧ t.shaft = s.shaft ∧ t.reg = s.reg
      ∧ t.sat = s.sat ∧ t.config = s.config ∧ t.webOk = s.webOk ∧ t.time = s.time ∧ t.pending = s.pending := by simp [t]
  have hnone : (s.profiles.changedOver arm).arm = none := by rw [changedOver_eq ha]
  have hstaging : (s.profiles.changedOver arm).staging = s.profiles.staging := by rw [changedOver_eq ha]; rfl
  have hcontent := contentOf_changedOver ha arm
  cases hcarried : carried with
  | true =>
    rw [hcarried] at hreferences
    have hstay : t = s.takenTo arm n := ht.trans (retireCheck_of_referenced hretiring hreferences)
    have hprofiles : t.profiles = s.profiles.changedOver arm := by rw [hstay]; rfl
    rw [hprofiles]
    refine ⟨by simp [changedOver_state ha], by simp [changedOver_state ha, hne],
      fun i hi hia => slot_changedOver_of_ne ha hi hia, hcontent, hnone, hstaging, fun p => ?_, hframe⟩
    rw [hstay]
    cases p <;> rfl
  | false =>
    rw [hcarried] at hreferences
    have hready := ht.trans (retireCheck_of_unreferenced hretiring hreferences)
    have hprofiles : t.profiles = (s.profiles.changedOver arm).setState a .ready := by rw [hready]; rfl
    rw [hprofiles]
    refine ⟨by simp [changedOver_state ha, Ne.symm hne], by simp,
      fun i hi hia => by rw [setState_slot_of_ne _ _ hia, slot_changedOver_of_ne ha hi hia],
      fun i => (setState_contentOf ..).trans (hcontent i), hnone, hstaging, fun p => ?_, hframe⟩
    rw [hready, horder]
    cases p <;> rfl

end Changeover

/-! ## The removal (R34, R45) -/

section Removal

variable {s : State}

/-- The records without the one of serial `past`. -/
def State.without (s : State) (past : Serial) : State :=
  { s with track := { s.track with records := s.track.records.filter fun b => !(b.serial == past) } }

theorem find_isSome_iff (t : Track) (n : Serial) : (t.find n).isSome ↔ ∃ b ∈ t.records, b.serial = n := by
  simp [Track.find]

/-- The removal: the record one past the delivery goes, and a removal is handed to the retirement check. -/
theorem removePast_eq (n : Serial) (s : State) :
    let past := n - BitVec.ofNat 32 (s.config.stations.delivery + 1)
    removePast n s = if (s.track.find past).isSome then retireCheck (s.without past) else s.without past := by
  intro past
  unfold removePast
  dsimp only
  cases h : s.track.find past with
  | some b => rfl
  | none =>
    rw [if_neg nofun]
    have hall : ∀ b ∈ s.track.records, ¬b.serial = past := by simpa [Track.find] using h
    have hfilter : s.track.records.filter (fun b => !(b.serial == past)) = s.track.records := List.filter_eq_self.mpr (by simpa using hall)
    rw [State.without, hfilter]

theorem removePast_track (n : Serial) (s : State) :
    (removePast n s).track = (s.without (n - BitVec.ofNat 32 (s.config.stations.delivery + 1))).track := by
  rw [removePast_eq]
  split
  · simp
  · rfl

theorem contentOf_retireCheck (s : State) (i : Fin 4) : (retireCheck s).profiles.contentOf i = s.profiles.contentOf i := by
  obtain h | ⟨j, -, -, h⟩ := retireCheck_cases s
  · rw [h]
  · rw [h]
    exact setState_contentOf ..

theorem contentOf_removePast (n : Serial) (s : State) (i : Fin 4) :
    (removePast n s).profiles.contentOf i = s.profiles.contentOf i := by
  rw [removePast_eq]
  split
  · exact contentOf_retireCheck ..
  · rfl

theorem references_iff (s : State) (i : Fin 4) :
    s.references i = true
      ↔ (∃ b ∈ s.track.records, b.slot = i) ∨ ∃ o, s.batch.current.body.order = some o ∧ o.slot = i := by
  unfold State.references
  cases s.batch.current.body.order <;> simp

/-- A retirement check that finds no RETIRING slot without a reference changes nothing (R34). -/
theorem retireCheck_of_all_referenced (h : ∀ i, (s.profiles.slot i).state = .retiring → s.references i = true) : retireCheck s = s := by
  obtain hstay | ⟨i, hi, hr, -⟩ := retireCheck_cases s
  · exact hstay
  · rw [h i (state_of_retiring hi)] at hr
    cases hr

end Removal

/-! ## The creation (R38, R43) -/

section Creation

variable {s : State} {a : Fin 4}

/-- What an armed SPLICE trigger shows after a creation that used up a pending splice (R31). -/
def shownArm (spliced : Bool) : Option ChangeoverArm → Option ChangeoverArm
  | some ⟨i, .splice false⟩ => some ⟨i, .splice spliced⟩
  | other => other

theorem shownArm_true (x : Option ChangeoverArm) : shownArm true x = armSeen x := by
  match x with
  | none => rfl
  | some ⟨_, .next⟩ => rfl
  | some ⟨_, .serial _⟩ => rfl
  | some ⟨_, .splice false⟩ => rfl
  | some ⟨_, .splice true⟩ => rfl

theorem shownArm_false (x : Option ChangeoverArm) : shownArm false x = x := by
  unfold shownArm
  split <;> rfl

/-- A creation: the record joins and the oldest leaves, the WAITING slots are armed, and a used splice is shown to the arm. -/
theorem createBlank_eq (s : State) :
    createBlank s
      = { armWaiting s.track.nextSerial s.createdAt with
          profiles := { s.createdAt.profiles with arm := shownArm s.track.splicePending s.createdAt.profiles.arm } } := by
  have hprofiles : (armWaiting s.track.nextSerial s.createdAt).profiles = s.createdAt.profiles := by simp
  have hcreate : createBlank s = if s.track.splicePending then markSpliceSeen (armWaiting s.track.nextSerial s.createdAt)
      else armWaiting s.track.nextSerial s.createdAt := rfl
  rw [hcreate, ← hprofiles]
  split
  · next h => rw [h, markSpliceSeen_eq, shownArm_true]
  · next h => rw [Bool.eq_false_of_not_eq_true h, shownArm_false]

/-- The record of blank `n` is never the one its creation removes (R45). -/
theorem ne_past (n : Serial) {d : Nat} (hd : d ≤ 31) : n ≠ n - BitVec.ofNat 32 (d + 1) := by
  intro h
  bv_omega

/-- A creation at which no changeover is taken. -/
theorem createdAt_of_unmet (ha : s.profiles.active = some a) (h : ∀ arm, s.profiles.arm = some arm → arm.trigger.met s.track.nextSerial = false) :
    s.createdAt = removePast s.track.nextSerial (addRecord a s) := by
  have hstay : changeoverAt s.track.nextSerial s = s := by
    cases harm : s.profiles.arm with
    | none => simp [changeoverAt, harm]
    | some arm => exact changeoverAt_of_unmet harm (h arm harm)
  rw [State.createdAt, hstay, ha]
  rfl

theorem createdAt_frame (s : State) :
    s.createdAt.shaft = s.shaft ∧ s.createdAt.sched = s.sched ∧ s.createdAt.reg = s.reg ∧ s.createdAt.batch = s.batch
      ∧ s.createdAt.sat = s.sat ∧ s.createdAt.run = s.run ∧ s.createdAt.config = s.config ∧ s.createdAt.webOk = s.webOk
      ∧ s.createdAt.time = s.time ∧ s.createdAt.pending = s.pending := by
  simp [State.createdAt]

theorem armedWhereWaiting_track {u : State} {c : Serial} {done : List TimedPoint} (h : s.ArmedWhereWaiting u c done) :
    u.track = s.track := by
  obtain ⟨hagrees, -⟩ := h
  rw [← hagrees]

/-- What a creation arms depends on the records, the configuration, the shaft and the register monitor after it alone (R67). -/
theorem slot_createBlank {pt : TimedPoint} (hpt : pt ∈ [TimedPoint.webSample, .printOpen, .printClose])
    (hw : (s.slot pt).phase = .waiting) :
    (createBlank s).slot pt = (s.createdAt.armedFor pt s.track.nextSerial).slot pt := by
  obtain ⟨-, hslots⟩ := armWaiting_arms s.track.nextSerial s.createdAt
  have hsched : s.createdAt.sched = s.sched := by simp [State.createdAt]
  have hwaits : (s.createdAt.slot pt).phase = .waiting := by
    simpa only [State.slot, hsched] using hw
  have hmem : pt ∈ [TimedPoint.printClose, .printOpen, .webSample] := by
    simp only [List.mem_cons] at hpt ⊢
    tauto
  have hcreated : (createBlank s).sched = (armWaiting s.track.nextSerial s.createdAt).sched := by rw [createBlank_eq]
  calc (createBlank s).slot pt
      = (armWaiting s.track.nextSerial s.createdAt).slot pt := by simp only [State.slot, hcreated]
    _ = (s.createdAt.armedFor pt s.track.nextSerial).slot pt := by rw [hslots, if_pos ⟨hmem, hwaits⟩]

/-- The part after the record of blank `n` of slot `a` has joined and the oldest has left, before the retirement check (R43, R45). -/
def State.turnedOver (s : State) (a : Fin 4) : State :=
  (addRecord a s).without (s.track.nextSerial - BitVec.ofNat 32 (s.config.stations.delivery + 1))

/-- The serial of the record that the creation of the next blank removes (R45). -/
def State.leaving (s : State) : Serial := s.track.nextSerial - BitVec.ofNat 32 (s.config.stations.delivery + 1)

theorem turnedOver_track (hd : s.config.stations.delivery ≤ 31) (a : Fin 4) :
    (s.turnedOver a).track
      = { records := (s.track.records.filter fun b => !(b.serial == s.leaving))
            ++ [Blank.created s.track.nextSerial a s.track.splicePending]
          nextSerial := s.track.nextSerial + 1
          highWater := some s.track.nextSerial
          splicePending := false
          boundaryPassed := false } := by
  have hne : s.track.nextSerial ≠ s.leaving := ne_past _ hd
  have hkeeps : [Blank.created s.track.nextSerial a s.track.splicePending].filter (fun b => !(b.serial == s.leaving))
      = [Blank.created s.track.nextSerial a s.track.splicePending] := by
    simp [Blank.created, hne]
  rw [State.turnedOver, State.without]
  simp only [addRecord, List.filter_append]
  exact congrArg (fun xs => Track.mk (_ ++ xs) (s.track.nextSerial + 1) (some s.track.nextSerial) false false) hkeeps

theorem isSome_find_addRecord (hd : s.config.stations.delivery ≤ 31) (a : Fin 4) :
    ((addRecord a s).track.find s.leaving).isSome ↔ ∃ b ∈ s.track.records, b.serial = s.leaving := by
  have hne : s.track.nextSerial ≠ s.leaving := ne_past _ hd
  rw [find_isSome_iff]
  simp only [addRecord, List.mem_append, List.mem_singleton, or_and_right, exists_or, exists_eq_left]
  exact or_iff_left hne

/-- A creation without a changeover at which no slot retires. -/
theorem createdAt_of_kept (ha : s.profiles.active = some a)
    (h : ∀ arm, s.profiles.arm = some arm → arm.trigger.met s.track.nextSerial = false) (hd : s.config.stations.delivery ≤ 31)
    (hk : (¬∃ b ∈ s.track.records, b.serial = s.leaving)
      ∨ ∀ i, (s.profiles.slot i).state = .retiring → (s.turnedOver a).references i = true) :
    s.createdAt = s.turnedOver a := by
  rw [createdAt_of_unmet ha h, removePast_eq]
  obtain hnone | hall := hk
  · exact if_neg (mt (isSome_find_addRecord hd a).mp hnone)
  · split
    · exact retireCheck_of_all_referenced hall
    · rfl

/-- A creation without a changeover at which the RETIRING slot loses its last reference (R34). -/
theorem createdAt_of_retired (ha : s.profiles.active = some a)
    (h : ∀ arm, s.profiles.arm = some arm → arm.trigger.met s.track.nextSerial = false) (hd : s.config.stations.delivery ≤ 31)
    (hremoved : ∃ b ∈ s.track.records, b.serial = s.leaving) {i : Fin 4} (hi : s.profiles.retiring = some i)
    (hr : ¬(s.turnedOver a).references i = true) :
    s.createdAt
      = post (.profileRetired i (s.profiles.orderOf i)) { s.turnedOver a with profiles := s.profiles.setState i .ready } := by
  rw [createdAt_of_unmet ha h, removePast_eq]
  refine (if_pos ((isSome_find_addRecord hd a).mpr hremoved)).trans ?_
  exact retireCheck_of_unreferenced (s := s.turnedOver a) hi (Bool.eq_false_of_not_eq_true hr)

/-- Settles O10: the creation of the next blank, with the removal and the arming it brings. -/
theorem blankIsCreatedAtTheBoundary : Obligations.BlankIsCreatedAtTheBoundary := by
  intro s a h hhigh hd n past reached record records removed retiring referenced arm
  have hdue : s.creationDue = reached := by simp [State.creationDue, State.boundary, hhigh, reached]
  have hexec : exec .blankCreation s = .next (if reached then settleEvent (createBlank s) else s) := by
    rw [← hdue]
    rfl
  refine ⟨fun hr => by rw [hexec, hr]; rfl, fun hr => ⟨_, by rw [hexec, hr]; rfl, settleEvent_passes _⟩,
    fun hr ha hunmet hnothing => ?_⟩
  have hmet (x : ChangeoverArm) (hx : s.profiles.arm = some x) : x.trigger.met n = false := hunmet x hx
  refine ⟨settleEvent (createBlank s), by rw [hexec, hr]; rfl, ?_⟩
  rw [settleEvent_of_nothingPassed hnothing]
  have htrack : (createBlank s).track = s.createdAt.track :=
    (createBlank_track s).trans (armedWhereWaiting_track (armWaiting_arms n s.createdAt))
  have hturned : (s.turnedOver a).track = ⟨records, n + 1, some n, false, false⟩ := turnedOver_track hd a
  have hcreated : s.createdAt.track = ⟨records, n + 1, some n, false, false⟩ := by
    rw [createdAt_of_unmet ha hmet, removePast_track]
    exact hturned
  have hrefs (i : Fin 4) : (s.turnedOver a).references i = true ↔ referenced i := by
    rw [references_iff, hturned]
    rfl
  have hframe := createdAt_frame s
  have hprofiles : (createBlank s).profiles
      = { s.createdAt.profiles with arm := shownArm s.track.splicePending s.createdAt.profiles.arm } := by
    rw [createBlank_eq]
  have hports : (createBlank s).ports = s.createdAt.ports := by rw [createBlank_eq]; simp
  refine ⟨by simp [htrack, hcreated], by simp [htrack, hcreated], by simp [htrack, hcreated], by simp [htrack, hcreated],
    fun pt hpt hw => ?_, fun hk => ?_, fun i hremoved hi honly hr => ?_, by simp, by simp, by simp, by simp, by simp, by simp,
    by simp, by simp, by simp⟩
  · have hslot : (setValveOutputs (createBlank s)).slot pt = (s.createdAt.armedFor pt n).slot pt := slot_createBlank hpt hw
    have hstation : stationOf s.config pt = 0 := by
      simp only [List.mem_cons, List.not_mem_nil, or_false] at hpt
      obtain rfl | rfl | rfl := hpt <;> rfl
    obtain ⟨hphase, hcycle, hserial, -⟩ := armedFor_armed s.createdAt pt n
    have hsame : (s.createdAt.armedFor pt n).slot pt
        = (State.armedFor { s with track := (setValveOutputs (createBlank s)).track } pt n).slot pt := by
      refine armedFor_slot_congr (by simp [hframe]) (by simp [hframe]) (by simp [hframe]) (by simp [hframe]) ?_
      have hcontent (i : Fin 4) : s.createdAt.profiles.contentOf i = s.profiles.contentOf i := by
        rw [createdAt_of_unmet ha hmet]
        exact contentOf_removePast ..
      simp [State.profileOf, htrack, hcontent]
    rw [hslot]
    exact ⟨hphase, hcycle, by simpa [hframe, hstation] using hserial, hsame⟩
  · have hstays : s.createdAt = s.turnedOver a :=
      createdAt_of_kept ha hmet hd (hk.imp id fun hall i hi => (hrefs i).mpr (hall i hi))
    rw [setValveOutputs_profiles, setValveOutputs_ports, hprofiles, hports, hstays]
    exact ⟨rfl, rfl⟩
  · have hretired := createdAt_of_retired ha hmet hd hremoved (retiring_eq_some hi honly) (mt (hrefs i).mp hr)
    rw [setValveOutputs_profiles, setValveOutputs_ports, hprofiles, hports, hretired]
    exact ⟨rfl, rfl⟩

end Creation

end Sys2Proof.Machine
end

section
/-! PROOFS. The homing (R4, R44, R52, R65, R164): the flush before it, blank c0, and what the event then takes (R70). -/

namespace Sys2Proof.Machine

/-! ## The one record of a homing -/

section Alone

variable {who : Origin} {a b : Phase} {s t : State} {c0 : Serial} {spliced : Bool}

/-- In LIVE blank `c0` is the only record and the newest, with SPLICE where `spliced` says so, and no creation is due (R9, R44). -/
structure State.Alone (s : State) (c0 : Serial) (spliced : Bool) : Prop where
  live : s.run.runState = .live
  record : s.track.records.map Blank.serial = [c0]
  next : s.track.nextSerial = c0 + 1
  newest : s.track.highWater = some c0
  splice : s.track.splicePending = false
  marked : spliced = true → ∀ b ∈ s.track.records, b.defects.splice = true
  noCreation : s.track.boundaryPassed = false

theorem alone_congr (h : s.Alone c0 spliced) (hr : t.run.runState = s.run.runState) (ht : t.track = s.track) : t.Alone c0 spliced := by
  obtain ⟨hlive, hrecord, hnext, hnewest, hsplice, hmarked, hnone⟩ := h
  exact ⟨hr.trans hlive, by rwa [ht], by rwa [ht], by rwa [ht], by rwa [ht], by rwa [ht], by rwa [ht]⟩

/-- A record that is changed keeps its serial and its defects (R38, R39). -/
theorem alone_record (h : s.Alone c0 spliced) {n : Serial} {f : Blank → Blank} (hs : ∀ b, (f b).serial = b.serial)
    (hf : ∀ b, s.track.find n = some b → b.StepsTo (f b)) : (s.updateBlank n f).Alone c0 spliced := by
  obtain ⟨hlive, hrecord, hnext, hnewest, hsplice, hmarked, hnone⟩ := h
  obtain ⟨b, hb⟩ : ∃ b, s.track.records = [b] := List.length_eq_one_iff.mp (by simpa using congrArg List.length hrecord)
  have hafter : (s.updateBlank n f).track.records = [if b.serial = n then f b else b] := by rw [updateBlank_records, hb]; rfl
  have hfound (he : b.serial = n) : b.StepsTo (f b) := hf b (by simp [Track.find, hb, he])
  refine ⟨hlive, ?_, hnext, hnewest, hsplice, fun hspliced => ?_, hnone⟩
  · rw [hb] at hrecord
    rw [hafter]
    split
    · simpa [hs] using hrecord
    · exact hrecord
  · have hbefore : b.defects.splice = true := hmarked hspliced b (by simp [hb])
    rw [hafter, List.forall_mem_singleton]
    split
    · next he =>
      obtain ⟨⟨-, -, -, hdefects, -⟩, -⟩ := hfound he
      exact hdefects .splice hbefore
    · exact hbefore

/-- The firing of one point creates no blank and changes the run state no more than the serials (R70). -/
theorem alone_move (hm : Move who a s b t) (ha : a = .firing) (h : s.Alone c0 spliced) : b = .firing ∧ t.Alone c0 spliced := by
  subst ha
  have hlive := h.live
  cases hm
  case flush hr => exact absurd hlive hr
  case record n f hs hf => exact ⟨rfl, alone_record h hs hf⟩
  case spliceSeen => exact ⟨rfl, alone_congr h (by simp) (by simp)⟩
  case pulse ch _ => exact ⟨rfl, alone_congr h (by simp) (by simp)⟩
  all_goals exact ⟨rfl, alone_congr h rfl rfl⟩

theorem alone_stays (hm : Stays who .firing s t) (h : s.Alone c0 spliced) : t.Alone c0 spliced := by
  have hkept := hm.keeps (Inv := fun k a s => k = 0 → a = .firing ∧ s.Alone c0 spliced) (k := 0)
    (fun k a s b t hm hs hk => alone_move hm (hs hk).1 (hs hk).2) (fun k a s slot _ _ hk => absurd hk (by omega))
    (fun k l a s hle hs hl => hs (by omega)) (fun _ => ⟨rfl, h⟩) rfl
  exact hkept.2

/-- Nothing but points is taken while no creation is due. -/
theorem alone_takes {n : Nat} (ht : State.Takes n s t) (h : s.Alone c0 spliced) : t.Alone c0 spliced := by
  induction n generalizing s with
  | zero =>
    cases ht
    exact h
  | succ n ih =>
    obtain ⟨u, hu, ht⟩ := ht
    refine ih ht ?_
    obtain ⟨hcreation, rfl⟩ | ⟨pt, k, ⟨hdue, -⟩, rfl⟩ := hu
    · obtain ⟨-, c, -, hpassed, -⟩ := hcreation
      rw [h.noCreation] at hpassed
      cases hpassed
    · have hfree : { s with freeCount := k }.Alone c0 spliced := alone_congr h rfl rfl
      exact alone_stays (who := ⟨none, false⟩) (fireOnce_stays (.inl (.inr rfl)) (by exact hdue)) hfree

end Alone

/-! ## The homing -/

section Homing

variable {s : State}

/-- The points of position 0, which a creation arms where they are WAITING (R67). -/
def atCreation : List TimedPoint := [.printClose, .printOpen, .webSample]

/-- A point of position 0 is armed at a homing whatever its slot held before (R65). -/
theorem armedAtHoming_congr {u t : State} {c0 : Serial} (x : Vector ActionSlot 42) (h : u.ArmedAtHoming t c0)
    (hx : ∀ pt, pt ∉ atCreation → u.slot pt = State.slot { u with sched := { u.sched with slots := x } } pt) :
    State.ArmedAtHoming { u with sched := { u.sched with slots := x } } t c0 := by
  have harmed (pt : TimedPoint) : (u.armedFor pt (c0 + BitVec.ofNat 32 (stationOf u.config pt))).slot pt
      = (State.armedFor { u with sched := { u.sched with slots := x } } pt (c0 + BitVec.ofNat 32 (stationOf u.config pt))).slot pt :=
    armedFor_slot_congr rfl rfl rfl rfl rfl
  obtain ⟨hslots, hclamped, hclear, hagrees⟩ := h
  refine ⟨fun pt => ⟨fun hl => ?_, fun hl => ?_⟩, fun hc => hclamped ?_, fun hc => hclear ?_, ?_⟩
  · rw [(hslots pt).1 hl]
    refine hx pt fun hpt => ?_
    simp only [atCreation, List.mem_cons, List.not_mem_nil, or_false] at hpt
    obtain rfl | rfl | rfl := hpt <;> simp at hl
  · rw [(hslots pt).2 hl]
    exact harmed pt
  · obtain ⟨pt, hl, hn⟩ := hc
    exact ⟨pt, hl, (congrArg ActionSlot.clampNoted (harmed pt)).trans hn⟩
  · exact fun pt => (hc pt).imp id fun hn => (congrArg ActionSlot.clampNoted (harmed pt)).trans hn
  · exact congrArg (fun y : State => { y with sched := { y.sched with slots := x } }) hagrees

theorem flushRecords_of_none (h : s.track.records = []) : flushRecords s = s := by
  simp [flushRecords, h]

theorem flushRecords_of_some {oldest newest : Blank} (hf : s.track.records.head? = some oldest)
    (hl : s.track.records.getLast? = some newest) :
    flushRecords s
      = retireCheck (post (.trackFlushed oldest.serial newest.serial) { s with track := { s.track with records := [] } }) := by
  simp only [flushRecords, hf, hl]

theorem flushRecords_track (s : State) : (flushRecords s).track = { s.track with records := [] } := by
  cases h : s.track.records with
  | nil => rw [flushRecords_of_none h, ← h]
  | cons b bs =>
    rw [flushRecords_of_some (oldest := b) (newest := (b :: bs).getLast (by simp)) (by rw [h]; rfl)
      (by rw [h]; exact List.getLast?_eq_some_getLast _)]
    simp

/-- A creation on an empty track removes nothing. -/
theorem createdAt_of_empty (h : s.track.records = []) (hd : s.config.stations.delivery ≤ 31) :
    s.createdAt
      = addRecord ((changeoverAt s.track.nextSerial s).profiles.active.getD 0) (changeoverAt s.track.nextSerial s) := by
  have hne := ne_past s.track.nextSerial hd
  unfold State.createdAt removePast
  simp [Track.find, addRecord, h, Blank.created, hne]

/-- A creation on an empty track. -/
theorem createBlank_of_empty (h : s.track.records = []) (hd : s.config.stations.delivery ≤ 31) :
    let offered := changeoverAt s.track.nextSerial s
    ∃ x : Vector ActionSlot 42,
      (∀ pt, pt ∉ atCreation → State.slot { s with sched := { s.sched with slots := x } } pt = s.slot pt)
      ∧ createBlank s
        = { offered with
            track := ⟨[Blank.created s.track.nextSerial (offered.profiles.active.getD 0) s.track.splicePending],
              s.track.nextSerial + 1, some s.track.nextSerial, false, false⟩
            sched := { s.sched with slots := x }
            profiles := { offered.profiles with arm := shownArm s.track.splicePending offered.profiles.arm } } := by
  intro offered
  have htrack : (changeoverAt s.track.nextSerial s).track = s.track := by simp
  have hsched : offered.sched = s.sched := by simp [offered]
  have hcreated := createdAt_of_empty h hd
  obtain ⟨hagrees, hslots⟩ := armWaiting_arms s.track.nextSerial s.createdAt
  have hcreate := createBlank_eq s
  generalize armWaiting s.track.nextSerial s.createdAt = y at hagrees hslots hcreate
  have hy : y = { s.createdAt with sched := { s.createdAt.sched with slots := y.sched.slots } } :=
    congrArg (fun z : State => { z with sched := { z.sched with slots := y.sched.slots } }) hagrees
  have hkept : s.createdAt.sched = s.sched := by rw [hcreated]; exact hsched
  refine ⟨y.sched.slots, fun pt hpt => ?_, ?_⟩
  · have hslot := hslots pt
    rw [if_neg fun hin => hpt hin.1] at hslot
    rw [show State.slot s pt = s.createdAt.slot pt by simp only [State.slot, hkept]]
    exact hslot
  · rw [hcreate, hy, hkept, hcreated]
    simp only [addRecord, htrack, h, List.nil_append]
    rfl

theorem active_withArm (p : Profiles) (arm : Option ChangeoverArm) : { p with arm := arm }.active = p.active := rfl

/-- The part in LIVE with blank c0 alone, before the arming of the homing (R164). -/
def State.arrived (s : State) : State :=
  postRunState s.run.runState .homed ((createBlank s).setRun .live (createBlank s).run.causes)

theorem homePart_eq (s : State) :
    homePart s = settleEvent (armAtHoming s.track.nextSerial (flushRecords (setHomed s.track.nextSerial s)).arrived) := by
  have hr : (flushRecords (setHomed s.track.nextSerial s)).run = s.run := by simp
  rw [State.arrived, hr]
  rfl

theorem arrived_alone (h : s.track.records = []) (hd : s.config.stations.delivery ≤ 31) :
    s.arrived.Alone s.track.nextSerial s.track.splicePending := by
  obtain ⟨x, -, hcreate⟩ := createBlank_of_empty h hd
  have htrack : s.arrived.track = ⟨[Blank.created s.track.nextSerial ((changeoverAt s.track.nextSerial s).profiles.active.getD 0)
      s.track.splicePending], s.track.nextSerial + 1, some s.track.nextSerial, false, false⟩ := by
    show (createBlank s).track = _
    rw [hcreate]
  refine ⟨rfl, ?_, ?_, ?_, ?_, fun hspliced b hb => ?_, ?_⟩
  · rw [htrack]; rfl
  · rw [htrack]
  · rw [htrack]
  · rw [htrack]
  · rw [htrack] at hb
    rw [List.mem_singleton.mp hb]
    exact hspliced
  · rw [htrack]

/-- Settles O8: what the homing itself does is read off its parts; what then stands passed creates no blank. -/
theorem forwardIndexEdgeHomes : Obligations.ForwardIndexEdgeHomes := by
  intro webOk s hh hr hdir hpitch hd c0 position shaft homed carried retiring
  let flushed := flushRecords homed
  have hexec : exec (.indexEdge webOk) s = .next (settleEvent (armAtHoming c0 flushed.arrived)) := by
    have hhome : takeIndexEdge { s with webOk := webOk } = homePart { s with webOk := webOk } := by
      unfold takeIndexEdge
      rw [if_neg (by simp [hh]), if_pos ⟨hr, hdir⟩]
    exact congrArg Host.Outcome.next (hhome.trans (homePart_eq _))
  have htrack : flushed.track = { s.track with records := [] } := flushRecords_track homed
  have hconfig : flushed.config = s.config := by simp [flushed, homed]
  have hempty : flushed.track.records = [] := by rw [htrack]
  have hnext : flushed.track.nextSerial = c0 := by rw [htrack]
  have hspliced : flushed.track.splicePending = s.track.splicePending := by rw [htrack]
  have halone : flushed.arrived.Alone c0 s.track.splicePending := by
    rw [← hnext, ← hspliced]
    exact arrived_alone hempty (by rw [hconfig]; exact hd)
  have harmed : (armAtHoming c0 flushed.arrived).Alone c0 s.track.splicePending :=
    alone_stays (who := ⟨none, false⟩) (armAtHoming_stays ..) halone
  have hpasses := settleEvent_passes (armAtHoming c0 flushed.arrived)
  have ht : (settleEvent (armAtHoming c0 flushed.arrived)).Alone c0 s.track.splicePending := by
    obtain ⟨k, u, -, htakes, -, ht⟩ := hpasses
    rw [ht]
    exact alone_congr (alone_takes htakes harmed) rfl rfl
  obtain ⟨hlive, hrecord, hnewer, hnewest, hsplice, hmarked, -⟩ := ht
  refine ⟨_, flushed, hexec, ?_, hlive, hrecord, hnewer, hnewest, hsplice, hmarked, fun h => flushRecords_of_none h,
    fun oldest newest hf hl => ?_, fun a ha => ?_, ?_, ?_, ?_, ?_, ?_⟩
  · simp [flushed, homed, State.arrived, shaft]
  · have hflush := flushRecords_of_some (s := homed) hf hl
    have hcarried (i : Fin 4) : (State.references { homed with track := { s.track with records := [] } } i = true) ↔ carried i := by
      rw [references_iff]
      exact or_iff_right (by simp)
    refine ⟨fun hall => hflush.trans ?_, fun i hi honly hc => hflush.trans ?_⟩
    · exact retireCheck_of_all_referenced fun i hi => (hcarried i).mpr (hall i hi)
    · exact retireCheck_of_unreferenced (retiring_eq_some hi honly) (Bool.eq_false_of_not_eq_true (mt (hcarried i).mp hc))
  · intro offered permit record arm live
    refine ⟨armAtHoming c0 flushed.arrived, ?_, hpasses⟩
    obtain ⟨x, hx, hcreate⟩ := createBlank_of_empty hempty (by rw [hconfig]; exact hd)
    have hrun : (changeoverAt c0 flushed).run = s.run := by simp [flushed, homed]
    have hhoming : flushed.run.runState = .homing := by simpa [flushed, homed] using hr
    have hsched : flushed.sched = s.sched := by simp [flushed, homed]
    have hoffered : offered.sched = s.sched := by simp [offered, flushed, homed]
    have hpermit : permitOf .live s.run.causes = permit := by simp [permitOf_eq, permit]
    have hactive : (changeoverAt c0 flushed).profiles.active = some a := ha
    have harrived : flushed.arrived
        = { live with sched := { s.sched with slots := x } } := by
      rw [State.arrived, hcreate, hnext, hspliced, hsched, hactive]
      simp only [State.setRun, hrun, hpermit, hhoming]
      unfold postRunState
      simp only [reduceCtorEq, if_false, active_withArm, hactive]
      rfl
    have hlive : live = { flushed.arrived with sched := { flushed.arrived.sched with slots := s.sched.slots } } := by
      rw [harrived, ← hoffered]
    rw [hlive]
    refine armedAtHoming_congr _ (armAtHoming_arms c0 flushed.arrived) fun pt hpt => ?_
    rw [← hlive, harrived]
    exact (hx pt hpt).trans (congrArg (fun y : Sched => y.slot pt) (hsched.trans hoffered.symm))
  · simp [flushed, homed, State.arrived]
  · simp [flushed, homed, State.arrived]
  · simp [flushed, homed, State.arrived]
  · simp [flushed, homed, State.arrived]
  · simp [flushed, homed, State.arrived]

end Homing

end Sys2Proof.Machine
end

section
/-! PROOFS. Firings at a due point: the web sample (R46, R96), the windows and their results (R88 to R96), the knife (R74), the OFF of a
valve segment (R81) and a void slot (R59). -/

namespace Sys2Proof.Machine

/-! ## The web sample (R46, R72, R96) -/

section WebSample

variable {s : State} {n : Serial} {b : Blank} {w : WindowRecord}

/-- A point of position 0 fires once: its slot waits for the next cycle (R67). -/
theorem firesOnce_of_waits {pt : TimedPoint} (hnext : ∀ x u, advanceSlot pt x u = u.setSlot pt x.waits) (h : s.due pt = true) :
    s.FiresOnce pt := by
  refine ⟨h, ?_⟩
  unfold fireOnce
  dsimp only
  rw [hnext]
  simp [State.due]

theorem haltsOnLoss_of_find {p : Profile} (hb : s.track.find n = some b) (hp : s.profiles.contentOf b.slot = some p) :
    s.haltsOnLoss n = p.header.haltOnLoss := by
  simp [State.haltsOnLoss, State.profileOf, hb, hp]

theorem fireWebSample_of_pending (hb : s.track.find n = some b) (hp : b.presence = .pending) :
    fireWebSample n s = resolveWaiting n (s.updateBlank n fun b => b.setPresence (presenceOf s.webOk)) := by
  simp [fireWebSample, hb, hp]

theorem resolveWaiting_of_other (h : ∀ w, s.reg.waiting = some w → w.serial ≠ n) : resolveWaiting n s = s := by
  unfold resolveWaiting
  split
  · rfl
  · next w hw => rw [if_neg (h w hw)]

theorem resolveWaiting_of_same (hw : s.reg.waiting = some w) (hn : w.serial = n) :
    resolveWaiting n s = judgePrint w { s with reg := { s.reg with waiting := none } } := by
  simp [resolveWaiting, hw, hn]

theorem judgePrint_of_present (hb : s.track.find w.serial = some b) (hp : b.presence = .present) : judgePrint w s = judge .print w s := by
  simp [judgePrint, hb, hp]

theorem judgePrint_of_not_present (hb : s.track.find w.serial = some b) (hp : b.presence ≠ .present) : judgePrint w s = s := by
  simp [judgePrint, hb, hp]

/-- Settles O15: by whether the waiting judgement is of the sampled blank, and then by the sample. -/
theorem webSampleSetsThePresence : Obligations.WebSampleSetsThePresence := by
  intro webOk s b x waiting sampled released hdue hfilled hfound hpending
  have hfires : State.FiresOnce { s with webOk := webOk } .webSample := firesOnce_of_waits (fun _ _ => rfl) hdue
  have hexec : exec (.webSample webOk) s = .next ((resolveWaiting x.serial sampled).setSlot .webSample waiting) := by
    refine congrArg Host.Outcome.next ((fireFilled_of_firesOnce hfires hfilled).trans ?_)
    exact congrArg (fun u : State => u.setSlot .webSample waiting) (fireWebSample_of_pending hfound hpending)
  have hsampled : released.track.find x.serial = some (b.setPresence (presenceOf webOk)) := by
    have hserial : b.serial = x.serial := serial_of_find hfound
    have hfind := find_updateBlank s x.serial x.serial (fun b => b.setPresence (presenceOf webOk)) (fun b => serial_setPresence b _)
    rw [hfound] at hfind
    exact hfind.trans (congrArg some (if_pos hserial))
  have hpresence : (b.setPresence (presenceOf webOk)).presence = presenceOf webOk := by simp [Blank.setPresence, hpending]
  refine ⟨fun hother => ?_, fun w hw hn => ⟨fun hbad => ?_, fun p hok hprofile => ?_⟩⟩
  · rw [hexec, resolveWaiting_of_other (by exact hother)]
  · have hjudged : judgePrint w released = released :=
      judgePrint_of_not_present (by rw [hn]; exact hsampled) (by rw [hpresence, hbad]; decide)
    rw [hexec, resolveWaiting_of_same (by exact hw) hn]
    exact congrArg (fun u : State => Host.Outcome.next (u.setSlot .webSample waiting)) hjudged
  · have hhalts : released.haltsOnLoss w.serial = p.header.haltOnLoss :=
      haltsOnLoss_of_find (by rw [hn]; exact hsampled) (by
        have hslot : (b.setPresence (presenceOf webOk)).slot = b.slot := by simp [Blank.setPresence, hpending]
        rw [hslot]
        exact hprofile)
    have hjudged : judgePrint w released = released.judgedTo .print w p.header.haltOnLoss := by
      rw [judgePrint_of_present (by rw [hn]; exact hsampled) (by rw [hpresence, hok]; rfl), judge_judged, hhalts]
    rw [hexec, resolveWaiting_of_same (by exact hw) hn]
    exact congrArg (fun u : State => Host.Outcome.next (u.setSlot .webSample waiting)) hjudged

end WebSample

/-! ## Windows (R88 to R96) -/

section Windows

variable {ch : RegChannel} {s : State} {w : WindowRecord} {b : Blank}

theorem openWindow_of_profile {n c : Serial} {p : Profile} {e ω t : Nat} (hp : s.profileOf n = some p)
    (hf : p.windowFields ch = some (e, ω, t)) :
    openWindow ch n c s = s.setChannel ch { s.channel ch with window := some ⟨n, e, ω, t, c, none⟩ } := by
  simp [openWindow, hp, hf]

/-- Settles O16, channel by channel. -/
theorem windowOpensWithItsBlanksSection : Obligations.WindowOpensWithItsBlanksSection := by
  intro ch s p e w t pt x opened honce hfilled hprofile hprint hpatch
  cases ch with
  | print =>
    have hfields : p.windowFields .print = some (e, w, t) := by simp [Profile.windowFields, hprint rfl]
    have hopened : openWindow .print x.serial x.cycle s = opened := openWindow_of_profile hprofile hfields
    refine ⟨fireFilled .printOpen s, rfl, fun _ => ?_, nofun⟩
    exact (fireFilled_of_firesOnce honce hfilled).trans (congrArg (fun u : State => u.setSlot .printOpen x.waits) hopened)
  | patch =>
    obtain ⟨knife, hsection⟩ := hpatch rfl
    have hfields : p.windowFields .patch = some (e, w, t) := by simp [Profile.windowFields, hsection]
    have hopened : openWindow .patch x.serial x.cycle s = opened := openWindow_of_profile hprofile hfields
    have hrearm : (openWindow .patch x.serial x.cycle s).RearmedTo (fireFilled .patchOpen s) .patchOpen x.cycle :=
      fireFilled_rearms honce hfilled rfl
    exact ⟨fireFilled .patchOpen s, rfl, nofun, fun _ => hopened ▸ hrearm⟩

theorem resolvePrint_of_pending (hb : s.track.find w.serial = some b) (hp : b.presence = .pending) :
    resolvePrint w s = { s with reg := { s.reg with waiting := some w } } := by
  simp [resolvePrint, hb, hp]

theorem resolvePrint_of_set (hb : s.track.find w.serial = some b) (hp : b.presence ≠ .pending) : resolvePrint w s = judgePrint w s := by
  simp [resolvePrint, hb, hp]

/-- The part with the window closed and the outcome of its knife used up (R91, R93). -/
def State.knifeUsed (s : State) (w : WindowRecord) : State :=
  dropKnife w.serial (s.setChannel .patch { s.channel .patch with window := none })

theorem closeWindow_print (hw : (s.channel .print).window = some w) :
    closeWindow .print s = resolvePrint w (s.setChannel .print { s.channel .print with window := none }) := by
  simp [closeWindow, hw]

theorem closeWindow_patch (hw : (s.channel .patch).window = some w) :
    closeWindow .patch s = if s.reg.knifeFired w.serial then judge .patch w (s.knifeUsed w) else s.knifeUsed w := by
  simp only [closeWindow, hw]
  rfl

theorem knifeFired_iff (r : RegisterMonitor) (n : Serial) :
    r.knifeFired n = true ↔ ∃ k, r.knives.find? (fun k => k.serial == n) = some k ∧ k.outcome = .fired := by
  unfold RegisterMonitor.knifeFired
  cases r.knives.find? (fun k => k.serial == n) <;> simp

/-- What a PRINT window's close leaves (R67, R91). -/
theorem exec_windowClose_print (honce : s.FiresOnce .printClose) (hfilled : (s.slot .printClose).angle.isSome = true) :
    exec (.windowClose .print) s = .next ((closeWindow .print s).setSlot .printClose (s.slot .printClose).waits) :=
  congrArg Host.Outcome.next (fireFilled_of_firesOnce honce hfilled)

/-- Settles O18, channel by channel, and on PRINT by the blank's presence. -/
theorem windowResultsAreDiscardedOrWait : Obligations.WindowResultsAreDiscardedOrWait := by
  intro ch s w pt x closed waiting honce hfilled hopen
  refine ⟨fun b hprint hb => ?_, fun hpatch hsuppressed => ?_⟩
  · subst hprint
    have hb' : closed.track.find w.serial = some b := hb
    rw [exec_windowClose_print honce hfilled, closeWindow_print hopen]
    refine ⟨fun habsent => ?_, fun hpending => ?_⟩
    · rw [resolvePrint_of_set hb' (by rw [habsent]; decide), judgePrint_of_not_present hb' (by rw [habsent]; decide)]
      rfl
    · rw [resolvePrint_of_pending hb' hpending]
      rfl
  · subst hpatch
    have hrearm : (closeWindow .patch s).RearmedTo (fireFilled .patchClose s) .patchClose x.cycle :=
      fireFilled_rearms honce hfilled rfl
    have hnot : ¬s.reg.knifeFired w.serial = true := by
      rw [knifeFired_iff]
      rintro ⟨k, hk, hfired⟩
      rw [hsuppressed k hk] at hfired
      cases hfired
    rw [closeWindow_patch hopen, if_neg hnot] at hrearm
    exact ⟨fireFilled .patchClose s, rfl, hrearm⟩

/-- Settles O19, channel by channel. -/
theorem windowResultsAreJudged : Obligations.WindowResultsAreJudged := by
  intro ch s w b p pt x closed honce hfilled hopen hb hprofile
  refine ⟨fun hprint hpresent => ?_, fun hpatch hfired => ?_⟩
  · subst hprint
    have hb' : closed.track.find w.serial = some b := hb
    have hhalts : closed.haltsOnLoss w.serial = p.header.haltOnLoss := haltsOnLoss_of_find hb' hprofile
    rw [exec_windowClose_print honce hfilled, closeWindow_print hopen, resolvePrint_of_set hb' (by rw [hpresent]; decide),
      judgePrint_of_present hb' hpresent, judge_judged]
    rw [show (s.setChannel .print { s.channel .print with window := none }).haltsOnLoss w.serial = _ from hhalts]
    rfl
  · subst hpatch
    have hrearm : (closeWindow .patch s).RearmedTo (fireFilled .patchClose s) .patchClose x.cycle :=
      fireFilled_rearms honce hfilled rfl
    have hhalts : (s.knifeUsed w).haltsOnLoss w.serial = p.header.haltOnLoss := haltsOnLoss_of_find (by exact hb) hprofile
    rw [closeWindow_patch hopen, if_pos ((knifeFired_iff _ _).mpr hfired), judge_judged, hhalts] at hrearm
    exact ⟨fireFilled .patchClose s, rfl, hrearm⟩

end Windows

/-! ## The knife (R74, R92) -/

section Knife

variable {s : State} {n : Serial} {b : Blank}

theorem startPulse_patch_eq (s : State) :
    startPulse .patch s
      = { s with
          sched :=
            if s.config.channels.patch.enable then
              { s.sched with
                patchPulse := some (s.time + s.config.channels.patch.width)
                outputs := { s.sched.outputs with patch := true } }
            else s.sched } := by
  unfold startPulse
  dsimp only
  split <;> rfl

theorem knifeFires_iff : knifeFires s b = true ↔
    b.presence = .present ∧ b.defects.splice = false ∧ s.shaft.motion = .moving ∧ s.inForce .patchInhibit = false := by
  simp [knifeFires, and_assoc]

theorem fireKnife_of_fires (hb : s.track.find n = some b) (hf : knifeFires s b = true) :
    fireKnife n s = handKnife n .fired (startPulse .patch s) := by
  simp [fireKnife, hb, hf]

theorem fireKnife_of_not_fires (hb : s.track.find n = some b) (hf : ¬knifeFires s b = true) :
    fireKnife n s = handKnife n .suppressed (if b.presence = .present then addDefect n .noPatch s else s) := by
  simp [fireKnife, hb, hf]

/-- Settles O22, by whether R74's conditions hold. -/
theorem patchKnifeFiresOrIsSuppressed : Obligations.PatchKnifeFiresOrIsSuppressed := by
  intro s b x c fires kept honce hfilled hheld
  have hrearm : (fireKnife x.serial s).RearmedTo (fireFilled .patchKnife s) .patchKnife x.cycle := fireFilled_rearms honce hfilled rfl
  refine ⟨fireFilled .patchKnife s, rfl, fun hf => ?_, fun hf => ?_⟩
  · rwa [fireKnife_of_fires hheld (knifeFires_iff.mpr hf), startPulse_patch_eq] at hrearm
  · rwa [fireKnife_of_not_fires hheld (mt knifeFires_iff.mp hf), addDefect_of_present_eq] at hrearm

end Knife

/-! ## The OFF of a valve segment (R81), and a void slot (R59) -/

/-- Settles O24: the act is on the segment set alone. -/
theorem valveOffClosesItsSegment : Obligations.ValveOffClosesItsSegment := by
  intro s v j pt x left honce hfilled
  have hrearm : (fireValveOff v j x.cycle s).RearmedTo (fireFilled pt s) pt x.cycle := fireFilled_rearms honce hfilled rfl
  exact ⟨fireFilled pt s, rfl, fun i => by rw [setValveOutputs_gum, fireFilled_config_of_firesOnce honce hfilled], hrearm⟩

/-- A void slot of a point that can be void is armed for the next cycle and does nothing else (R59, R66). -/
theorem fireOnce_of_void {s : State} {pt : TimedPoint} (hpt : pt.canBeVoid = true) (hvoid : (s.slot pt).angle = none) :
    fireOnce pt s = armSlot pt ((s.slot pt).cycle + 1) s := by
  unfold fireOnce
  dsimp only
  rw [if_pos (by rw [hvoid]; rfl)]
  cases pt with
  | webSample => cases hpt
  | printOpen => cases hpt
  | printClose => cases hpt
  | kick => cases hpt
  | _ => rfl

/-- Settles O25: a firing of a void slot skips the act. -/
theorem voidSlotIsConsumed : Obligations.VoidSlotIsConsumed := by
  intro s pt hpt honce hvoid
  refine ⟨fireOnce pt s, ?_, ?_⟩
  · refine congrArg Host.Outcome.next ?_
    rw [if_pos (by rw [State.isVoid, hvoid]; rfl), firePoint_of_firesOnce honce]
  · rw [fireOnce_of_void hpt hvoid]
    exact armSlot_rearms ..

end Sys2Proof.Machine
end

section
/-! PROOFS. The target of an armed slot (R59 to R63): its angle and whether a clamp engages, and what a computation of it leaves. -/

namespace Sys2Proof.Machine

section Target

variable {s : State} {pt : TimedPoint} {a : Nat}

/-- The target at a relative angle (R63). -/
def State.targetAt (s : State) (pt : TimedPoint) (r : Int) : Nat := offsetPosition s.pitch (cycleStart s.pitch (s.slot pt).cycle) r

theorem retarget_of_void (h : (s.slot pt).angle = none) : retarget pt s = s.setSlot pt (s.aimed pt (s.targetAt pt 0)) := by
  simp only [retarget, h]
  rfl

/-- No clamp engages, or the arming has noted one already (R61). -/
theorem retarget_of_unnoted (h : (s.slot pt).angle = some a)
    (hc : (relativeAngle s pt (s.slot pt) a).clamped = false ∨ (s.slot pt).clampNoted = true) :
    retarget pt s = s.setSlot pt (s.aimed pt (s.targetAt pt (relativeAngle s pt (s.slot pt) a).angle)) := by
  simp only [retarget, h]
  refine if_neg fun hn => ?_
  simp only [Bool.and_eq_true, Bool.not_eq_true'] at hn
  obtain ⟨hclamped, hnoted⟩ := hn
  obtain hc | hc := hc
  · rw [hc] at hclamped; cases hclamped
  · rw [hc] at hnoted; cases hnoted

/-- The first clamp of an arming adds TIMING (R61). -/
theorem retarget_of_noted (h : (s.slot pt).angle = some a) (hc : (relativeAngle s pt (s.slot pt) a).clamped = true)
    (hn : (s.slot pt).clampNoted = false) :
    retarget pt s
      = addDefect (s.slot pt).serial .timing
          (s.setSlot pt { s.aimed pt (s.targetAt pt (relativeAngle s pt (s.slot pt) a).angle) with clampNoted := true }) := by
  simp only [retarget, h]
  exact if_pos (by rw [hc, hn]; rfl)

theorem relativeAngle_of_uncompensated (h : leadOf s.config pt = none) (x : ActionSlot) (a : Nat) :
    relativeAngle s pt x a = ⟨a, false⟩ := by
  simp only [relativeAngle, h]

/-- R60, R61: the relative angle of a compensated point other than a valve OFF. -/
theorem relativeAngle_of_compensated {lead : Nat} (h : leadOf s.config pt = some lead) (hoff : ∀ v j, pt ≠ .valveOff v j)
    (x : ActionSlot) (a : Nat) :
    relativeAngle s pt x a
      = clampedRelative s.pitch
          ((a : Int) + (if pt = .patchKnife then s.reg.patch.value else 0) - (advanceOf s.shaft.speed lead : Int)) := by
  simp only [relativeAngle, h]
  cases pt with
  | valveOff v j => exact absurd rfl (hoff v j)
  | patchKnife => exact congrArg (clampedRelative s.pitch) (by rw [if_pos rfl]; omega)
  | _ => exact congrArg (clampedRelative s.pitch) (by rw [if_neg nofun]; omega)

theorem clampedRelative_clamped (pitch : Nat) (r : Int) :
    (clampedRelative pitch r).clamped = true ↔ r < -((pitch / 2 : Nat) : Int) ∨ (pitch : Int) - 1 < r := by
  simp [clampedRelative, belowClamp, aboveClamp]

theorem offRelative_clamped (pitch : Nat) (r floor : Int) :
    (offRelative pitch r floor).clamped = true ↔
      r < -((pitch / 2 : Nat) : Int)
        ∨ (pitch : Int) - 1 < Max.max (Max.max (-((pitch / 2 : Nat) : Int)) r) floor := by
  simp only [offRelative, belowClamp, aboveClamp, Bool.or_eq_true, decide_eq_true_eq]
  refine or_congr_right ?_
  split <;> split <;> omega

/-- Settles O20: a void slot, an uncompensated and a compensated point, whose clamp is noted once. -/
theorem targetsAreCompensatedAndClamped : Obligations.TargetsAreCompensatedAndClamped := by
  intro s pt x start m aimed
  refine ⟨fun hvoid => ?_, fun a ha hlead => ?_, fun a lead => ?_⟩
  · rw [retarget_of_void hvoid, State.targetAt, show (0 : Int) = ((0 : Nat) : Int) from rfl, offsetPosition_nat]
    rfl
  · have hrelative := relativeAngle_of_uncompensated hlead (s.slot pt) a
    rw [retarget_of_unnoted ha (.inl (by rw [hrelative])), hrelative, State.targetAt, offsetPosition_nat]
    rfl
  · intro advance k r low high clamped target hpitch ha hlead hoff
    have hrelative : relativeAngle s pt (s.slot pt) a = clampedRelative s.pitch r := relativeAngle_of_compensated hlead hoff _ a
    have hclamped : (relativeAngle s pt (s.slot pt) a).clamped = true ↔ clamped := by
      rw [hrelative]
      exact clampedRelative_clamped s.pitch r
    have htarget : s.targetAt pt (relativeAngle s pt (s.slot pt) a).angle = target.toNat := by
      rw [hrelative, show (clampedRelative s.pitch r).angle = _ from clampRelative_eq hpitch r]
      rfl
    refine ⟨fun hc => ?_, fun hc hn => ?_⟩
    · rw [retarget_of_unnoted ha (hc.imp (fun h => Bool.eq_false_of_not_eq_true (mt hclamped.mp h)) id), htarget]
      rfl
    · rw [retarget_of_noted ha (hclamped.mpr hc) hn, htarget]
      rfl

/-- Settles O21: the floor of R62 under the two clamps. -/
theorem valveOffStaysBehindItsOn : Obligations.ValveOffStaysBehindItsOn := by
  intro s v j a on pt x c low high start r onRelative lifted clamped target aimed hpitch ha hon
  have hfloor : offFloor s v j (s.slot pt) = onRelative + (c.minOn : Int) := by
    have hangle : (s.slot pt).onAngle = some on := hon
    unfold offFloor
    simp only [hangle, Option.getD_some, clampRelative_eq hpitch, onRelative]
    show _ = (match s.sched.instanceOf v j x.cycle with | some i => _ | none => _) + _
    cases s.sched.instanceOf v j x.cycle <;> rfl
  have hrelative : relativeAngle s pt (s.slot pt) a = offRelative s.pitch r (onRelative + (c.minOn : Int)) := by
    rw [← hfloor]
    rfl
  have hclamped : (relativeAngle s pt (s.slot pt) a).clamped = true ↔ clamped := by
    rw [hrelative]
    exact offRelative_clamped s.pitch r _
  have htarget : s.targetAt pt (relativeAngle s pt (s.slot pt) a).angle = target := by
    rw [hrelative, offRelative_angle hpitch]
    rfl
  refine ⟨fun hc => ?_, fun hc hn => ?_⟩
  · rw [retarget_of_unnoted ha (hc.imp (fun h => Bool.eq_false_of_not_eq_true (mt hclamped.mp h)) id), htarget]
    rfl
  · rw [retarget_of_noted ha (hclamped.mpr hc) hn, htarget]
    rfl

end Target

end Sys2Proof.Machine
end

section
/-! PROOFS. The count point (chapter 7): the attempts before it, a stray, and a good blank (R131 to R134). -/

namespace Sys2Proof.Machine

section Count

variable {s : State} {n c : Serial} {slot : Fin 4} {b : Blank}

theorem countBlank_of_not_passed (hb : s.track.find n = some b) (hp : b.outcome ≠ .passed) (c : Serial) : countBlank n c s = s := by
  simp [countBlank, hb, hp]

theorem countBlank_of_passed (hb : s.track.find n = some b) (hp : b.outcome = .passed) (c : Serial) :
    countBlank n c s = countPassed n b.slot c s := by
  simp [countBlank, hb, hp]

/-- The part after the attempts before the count (R131). -/
def State.attempted (s : State) (slot : Fin 4) (c : Serial) : State := attemptOrderChange slot c (attemptPending c s)

theorem countPassed_of_stray (h : (s.attempted slot c).openBatch.body.otherSlot slot = true) :
    countPassed n slot c s = (countStray n (s.attempted slot c)).overrunHanded := by
  rw [← checkOverrun_eq]
  exact congrArg checkOverrun (if_pos h)

theorem countPassed_of_good (h : (s.attempted slot c).openBatch.body.otherSlot slot = false) :
    countPassed n slot c s = (countGoodBlank n slot c (s.attempted slot c)).overrunHanded := by
  rw [← checkOverrun_eq]
  exact congrArg checkOverrun (if_neg (Bool.eq_false_iff.mp h))

/-- The part with blank `n` counted `mark` and the open batch's fields replaced. -/
def State.countedAs (s : State) (n : Serial) (mark : Counted) (body : BatchBody) : State :=
  (s.updateBlank n fun b => b.setCounted mark).setOpenBatch { s.openBatch with body := body }

theorem countStray_eq (n : Serial) (s : State) :
    countStray n s
      = s.countedAs n .stray
          { s.openBatch.body with strays := Nat.min (2 ^ 32 - 1) (s.openBatch.body.strays + 1), mixed := true } := by
  rw [← countUpTo_eq_min]
  rfl

/-- What a batch carries after it adopts the slot of its first good blank (R127). -/
def BatchBody.orderAfter (b : BatchBody) (slot : Fin 4) (p : Profile) : BatchOrder :=
  match b.order with
  | some o => o
  | none => ⟨slot, p.header.order, p.header.batchTarget, p.header.overrun⟩

/-- The serials a batch spans after blank `n` (R133). -/
def BatchBody.spanAfter (b : BatchBody) (n : Serial) : SerialSpan :=
  match b.span with
  | some y => ⟨y.first, n⟩
  | none => ⟨n, n⟩

theorem batch_countGood_eq (b : BatchBody) (n : Serial) {slot : Fin 4} {p : Profile} (hp : s.profiles.contentOf slot = some p) :
    b.countGood n (adoptedOrder s slot)
      = { b with
          good := Nat.min (2 ^ 32 - 1) (b.good + 1), order := some (b.orderAfter slot p), span := some (b.spanAfter n) } := by
  have hadopted : adoptedOrder s slot = some ⟨slot, p.header.order, p.header.batchTarget, p.header.overrun⟩ := by
    simp [adoptedOrder, hp]
  rw [BatchBody.countGood, hadopted, countUpTo_eq_min, BatchBody.orderAfter, BatchBody.spanAfter]
  cases b.order <;> cases b.span <;> rfl

theorem countGoodBlank_eq {p : Profile} (hp : s.profiles.contentOf slot = some p) (n c : Serial) :
    let old := s.openBatch.body
    let good := Nat.min (2 ^ 32 - 1) (old.good + 1)
    let order := old.orderAfter slot p
    let one := s.countedAs n .good { old with good := good, order := some order, span := some (old.spanAfter n) }
    countGoodBlank n slot c s = if order.target ≤ good ∧ old.held = false then attemptClose .target c one else one := by
  intro old good order one
  unfold countGoodBlank
  dsimp only
  rw [batch_countGood_eq _ n hp]
  refine if_congr ?_ rfl rfl
  simp [BatchBody.targetMet, order, good, old]

end Count

/-- Settles O29: a blank that is not PASSED, and of a PASSED one a stray or a good blank of the batch that the attempts leave. -/
theorem countPointCountsPassedBlanks : Obligations.CountPointCountsPassedBlanks := by
  intro s b x foreign first settled old counted honce hfilled hheld
  have hrearm : (countBlank x.serial x.cycle s).RearmedTo (fireFilled .count s) .count x.cycle := fireFilled_rearms honce hfilled rfl
  have hsettled : s.attempted b.slot x.cycle = settled := rfl
  have hforeign : settled.openBatch.body.otherSlot b.slot = foreign settled := rfl
  refine ⟨fireFilled .count s, rfl, fun hp => ?_, fun hp hf => ?_, fun hp hf p hprofile => ?_⟩
  · rwa [countBlank_of_not_passed hheld hp] at hrearm
  · rwa [countBlank_of_passed hheld hp, countPassed_of_stray (by rw [hsettled, hforeign]; exact hf), hsettled, countStray_eq] at hrearm
  · rwa [countBlank_of_passed hheld hp, countPassed_of_good (by rw [hsettled, hforeign]; exact hf), hsettled,
      countGoodBlank_eq hprofile] at hrearm

end Sys2Proof.Machine
end

section
/-! PROOFS. Transfers (sections 11.1 and 11.4): what a transfer shifts out, how it ends, the refusal of a wrong length, and the frame that
spells each command (R189 to R194, R201, R202). -/

namespace Sys2Proof.Machine

/-! ## What a transfer shifts out (R190) -/

theorem setPort_port (s : State) (p : PortId) : s.setPort p (s.port p) = s := by cases p <;> rfl

theorem frameToShift_eq (x : Port) : x.frameToShift = pendingFrame x.pending := by
  unfold Port.frameToShift
  cases x.pending <;> rfl

/-- Settles O35, by the state the transfer finds its port in. -/
theorem transfersShiftOutThePendingResponse : Obligations.TransfersShiftOutThePendingResponse := by
  intro p mosi s old frame
  have hframe : old.frameToShift = frame := frameToShift_eq old
  have hexec : exec (.transferBegin p mosi) s = .next (s.setPort p (old.shiftIn mosi)) := rfl
  have hpending (bytes : List Byte) : (if bytes.isEmpty then old.pending else none) = if bytes = [] then old.pending else none :=
    if_congr (by simp) rfl rfl
  refine ⟨fun hidle => ?_, fun first hopen => ?_, fun hignored => ?_⟩
  · have hshift : old.shiftIn mosi = old.beginTransfer mosi := by simp only [Port.shiftIn, hidle]
    rw [hexec, hshift, Port.beginTransfer, hframe, hpending]
    rfl
  · have hshift : old.shiftIn mosi = old.continueTransfer first mosi := by simp only [Port.shiftIn, hopen]
    rw [hexec, hshift, Port.continueTransfer, hpending]
    rfl
  · have hshift : old.shiftIn mosi = old := by simp only [Port.shiftIn, hignored]
    rw [hexec, hshift]
    exact congrArg Host.Outcome.next (setPort_port s p)

/-! ## How a transfer ends (R189, R191, R201) -/

section Ends

variable {p : PortId} {s : State} {bytes first all : List Byte}

theorem transferBytes_of_idle {x : Port} (h : x.transfer = .idle) (hall : all ≠ []) : x.transferBytes all = some all := by
  simp [Port.transferBytes, h, hall]

/-- A transfer that has begun ends with the longer of what it has shifted in and what its end carries, where neither contradicts the
other (notes/assumptions/14.md). -/
theorem transferBytes_of_shifting {x : Port} (h : x.transfer = .shifting first) (all : List Byte) :
    x.transferBytes all
      = if first = [] ∧ all = [] then none
        else if first <+: all then some all else if all <+: first then some first else none := by
  simp [Port.transferBytes, h]

theorem ended_of_bytes (h : (s.port p).transferBytes all = some bytes) :
    s.CanEnd p all ∧ (endTransfer p all s).bytes = some bytes ∧ (s.ended p all).port p = (s.port p).endTransfer bytes := by
  have hend : endTransfer p all s = ⟨s.setPort p ((s.port p).endTransfer bytes), some bytes⟩ := by
    simp only [endTransfer, h]
  refine ⟨by simp [State.CanEnd, h], by rw [hend], ?_⟩
  rw [State.ended, hend, setPort_port_self]

theorem ended_of_canEnd {frame : List Byte} (h : s.CanEnd p frame) :
    ((s.ended p frame).port p).transfer = .idle ∧ ((s.ended p frame).port p).pending = none
      ∧ (∀ q, q ≠ p → (s.ended p frame).port q = s.port q) ∧ { s.ended p frame with ports := s.ports } = s := by
  obtain ⟨bytes, -, hended⟩ := ended_port h
  have hidle : ((s.port p).endTransfer bytes).transfer = .idle ∧ ((s.port p).endTransfer bytes).pending = none := by
    unfold Port.endTransfer
    split <;> exact ⟨rfl, rfl⟩
  rw [hended, setPort_port_self]
  exact ⟨hidle.1, hidle.2, fun q hq => setPort_port_of_ne s _ hq, rfl⟩

/-- The end of a transfer that carries no frame only leaves the port IDLE (R189, R201). -/
theorem endTransfer_of_unjudged (hb : (s.port p).transferBytes all = none) (hu : (s.port p).endsUnjudged all = true) :
    endTransfer p all s = ⟨s.setPort p { s.port p with transfer := .idle }, none⟩ := by
  simp only [endTransfer, hb, hu, if_true]

theorem endTransfer_of_ignored (h : (s.port p).transfer = .ignored) (all : List Byte) :
    endTransfer p all s = ⟨s.setPort p { s.port p with transfer := .idle }, none⟩ :=
  endTransfer_of_unjudged (by simp [Port.transferBytes, h]) (by simp [Port.endsUnjudged, h])

theorem takeCommand_of_ignored (h : (s.port p).transfer = .ignored) (code tag : Byte) (payload : List Byte) (body : State → Answer) :
    takeCommand p code tag payload body s = s.setPort p { s.port p with transfer := .idle } := by
  simp only [takeCommand, endTransfer_of_ignored h]

theorem endWithAnswer_of_bytes (h : (s.port p).transferBytes all = some bytes) {judge : List Byte → Bool} (hj : judge bytes = true)
    (answer : List Byte → Response) :
    endWithAnswer p all judge answer s = respond p (answer bytes) (s.ended p all) := by
  obtain ⟨-, hbytes, -⟩ := ended_of_bytes h
  simp only [endWithAnswer, hbytes, hj, if_true]
  rfl

theorem endWithAnswer_of_none {u : State} (h : endTransfer p all s = ⟨u, none⟩) (judge : List Byte → Bool)
    (answer : List Byte → Response) : endWithAnswer p all judge answer s = u := by
  simp only [endWithAnswer, h]

theorem malformed_iff (bytes : List Byte) :
    malformed bytes = true ↔
      bytes.length < 3 ∨ 61 < (bytes.getD 2 0).toNat ∨ bytes.length < 3 + (bytes.getD 2 0).toNat := by
  simp [malformed, commandPayloadLimit, u8At, or_assoc]

theorem unknownCode_of_outside {bytes : List Byte} (hl : (bytes.getD 2 0).toNat ≤ 61) (h : 3 + (bytes.getD 2 0).toNat ≤ bytes.length)
    (hc : bytes.getD 0 0 ∉ commandCodes) : unknownCode bytes = true := by
  have hwell : malformed bytes = false := by
    rw [Bool.eq_false_iff, ne_eq, malformed_iff]
    omega
  have hnot : commandCodes.contains (bytes.getD 0 0) = false := by simpa [List.contains_eq_mem] using hc
  rw [unknownCode, hwell, hnot]
  rfl

/-- Whatever command ends a transfer that stood open at a hardware reset, nothing is taken (R201). -/
theorem exec_of_ignored {i : Instr} (h : (s.port p).transfer = .ignored) (hi : i.port = some p)
    (hb : ∀ mosi, i ≠ .transferBegin p mosi) : exec i s = .next (s.setPort p { s.port p with transfer := .idle }) := by
  have htaken (code tag : Byte) (payload : List Byte) (body : State → Answer) :
      (Host.Outcome.next (takeCommand p code tag payload body s) : Next) = Host.Outcome.next (s.setPort p { s.port p with transfer := .idle }) :=
    congrArg Host.Outcome.next (takeCommand_of_ignored h code tag payload body)
  have hanswered (bytes : List Byte) (judge : List Byte → Bool) (answer : List Byte → Response) :
      (Host.Outcome.next (endWithAnswer p bytes judge answer s) : Next) = Host.Outcome.next (s.setPort p { s.port p with transfer := .idle }) :=
    congrArg Host.Outcome.next (endWithAnswer_of_none (endTransfer_of_ignored h bytes) judge answer)
  cases i
  all_goals cases hi
  case transferBegin mosi => exact absurd rfl (hb mosi)
  case frame bytes => exact hanswered ..
  case unknown bytes => exact hanswered ..
  case nop tag payload =>
    refine congrArg Host.Outcome.next ?_
    simp only [endTransfer_of_ignored h]
  all_goals exact htaken ..

end Ends

/-- Settles O36: the ends that carry a frame, by what the port holds, and those that carry none. -/
theorem transfersEndByTheirFrames : Obligations.TransfersEndByTheirFrames := by
  intro p s old
  refine ⟨fun frame h => ended_of_canEnd h, fun frame hidle hframe => ?_, fun first frame hopen => ?_, fun bytes hbytes => ?_,
    fun tag payload hl hend => ?_, fun hopen => ?_, fun i hignored hi hb => exec_of_ignored hignored hi hb⟩
  · obtain ⟨hend, -, hport⟩ := ended_of_bytes (transferBytes_of_idle hidle hframe)
    refine ⟨hend, hport.trans ?_⟩
    show old.endTransfer frame = _
    simp only [Port.endTransfer, hidle, frameToShift_eq]
    rfl
  · intro whole
    have hbytes := transferBytes_of_shifting hopen frame
    refine ⟨fun hwhole hagree => ?_, fun hf hr hend => ?_⟩
    · have hsome : old.transferBytes frame = some whole := by
        have hne : ¬(first = [] ∧ frame = []) := by
          rintro ⟨rfl, rfl⟩
          exact hwhole rfl
        rw [hbytes, if_neg hne]
        by_cases hf : first <+: frame
        · rw [if_pos hf]
          exact congrArg some (if_pos hf.length_le).symm
        · have hr : frame <+: first := hagree.resolve_left hf
          have hshort : ¬first.length ≤ frame.length := fun hle => hf (hr.eq_of_length_le hle ▸ List.prefix_rfl)
          rw [if_neg hf, if_pos hr]
          exact congrArg some (if_neg hshort).symm
      obtain ⟨hend, -, hport⟩ := ended_of_bytes hsome
      refine ⟨hend, hport.trans ?_⟩
      show old.endTransfer whole = _
      simp only [Port.endTransfer, hopen]
      rfl
    · have hne : ¬(first = [] ∧ frame = []) := by
        rintro ⟨rfl, rfl⟩
        exact hf List.prefix_rfl
      rw [if_neg hne, if_neg hf, if_neg hr] at hbytes
      exact hend hbytes
  · intro l
    refine ⟨fun hbad => ?_, fun hl hlong hcode => ?_⟩
    · exact congrArg Host.Outcome.next (endWithAnswer_of_bytes hbytes ((malformed_iff bytes).mpr hbad) frameResponse)
    · exact congrArg Host.Outcome.next (endWithAnswer_of_bytes hbytes (unknownCode_of_outside hl hlong hcode) unknownResponse)
  · obtain ⟨bytes, hbytes, -⟩ := ended_port hend
    refine congrArg Host.Outcome.next ?_
    dsimp only
    rw [hbytes]
    exact if_pos hl
  · refine congrArg Host.Outcome.next (endWithAnswer_of_none (endTransfer_of_unjudged ?_ ?_) malformed frameResponse)
    · simp [transferBytes_of_shifting hopen]
    · simp [Port.endsUnjudged, hopen]

/-! ## Wrong lengths (R194) -/

/-- The commands with a fixed length check it before anything else. -/
theorem exec_of_fixedLength : ∀ x ∈ fixedLengths, ∃ body : PortId → List Byte → State → Answer, ∀ p tag payload s,
    exec (x.1 p tag payload) s = .next (takeCommand p x.2.1 tag payload (withLength x.2.2 payload (body p payload)) s) := by
  simp only [fixedLengths, List.forall_mem_cons, List.not_mem_nil, false_implies, implies_true, and_true]
  and_intros
  all_goals exact ⟨_, fun _ _ _ _ => rfl⟩

/-- Settles O37: the length is checked first, and the refusal names the length expected. -/
theorem wrongLengthsAreRefused : Obligations.WrongLengthsAreRefused := by
  intro command code n hmem p tag payload s hn hl hend
  obtain ⟨body, hexec⟩ := exec_of_fixedLength _ hmem
  have hrefused (u : State) : withLength n payload (body p payload) u = invalid .length 0 n u := if_neg hn
  rw [hexec, takeCommand_of_canEnd hend hl, hrefused]
  rfl

/-! ## Frames and commands (R191, R202, R204) -/

theorem malformed_commandFrame {payload : List Byte} (hl : payload.length ≤ 61) (code tag : Byte) :
    malformed (commandFrame code tag payload) = false := by
  have hlength : (BitVec.ofNat 8 payload.length).toNat = payload.length := by
    rw [BitVec.toNat_ofNat]
    omega
  rw [Bool.eq_false_iff, ne_eq, malformed_iff]
  simp only [commandFrame, List.length_cons, List.getD_cons_succ, List.getD_cons_zero, hlength]
  omega

/-- The frame of a command spells what its code, tag and payload spell (R191, R202). -/
theorem decode_commandFrame {p : PortId} {code tag : Byte} {payload : List Byte} {i : Instr} (hl : payloadFits payload = true)
    (hi : commandOf p code tag payload = some i) : decodeTransfer p (commandFrame code tag payload) = i := by
  have hfits : payload.length ≤ 61 := of_decide_eq_true hl
  have hpayload : ((commandFrame code tag payload).drop 3).take (u8At (commandFrame code tag payload) 2) = payload := by
    have hlength : u8At (commandFrame code tag payload) 2 = payload.length := by
      simp only [u8At, commandFrame, List.getD_cons_succ, List.getD_cons_zero, BitVec.toNat_ofNat]
      omega
    rw [hlength]
    exact List.take_length
  unfold decodeTransfer
  rw [malformed_commandFrame hfits, if_neg Bool.false_ne_true, hpayload]
  simp only [commandFrame, List.getD_cons_succ, List.getD_cons_zero, hi]

theorem mem_commandCodes_of_toNat {code : Byte} {k : Nat} (h : code.toNat = k) (hk : BitVec.ofNat 8 k ∈ commandCodes) :
    code ∈ commandCodes := by
  rwa [← h, BitVec.ofNat_toNat, BitVec.setWidth_eq] at hk

/-- A code outside the index spells no command (R191, R204). -/
theorem commandOf_of_outside {code : Byte} (h : code ∉ commandCodes) (p : PortId) (tag : Byte) (payload : List Byte) :
    commandOf p code tag payload = none := by
  unfold commandOf
  split
  case h_28 => rfl
  all_goals
    next hcode => exact absurd (mem_commandCodes_of_toNat hcode (by decide)) h

theorem decode_of_malformed {p : PortId} {bytes : List Byte} (h : malformed bytes = true) : decodeTransfer p bytes = .frame p bytes :=
  if_pos h

theorem decode_of_unknownCode {p : PortId} {bytes : List Byte} (h : unknownCode bytes = true) :
    decodeTransfer p bytes = .unknown p bytes := by
  simp only [unknownCode, Bool.and_eq_true, Bool.not_eq_true', List.contains_eq_mem, decide_eq_false_iff_not] at h
  obtain ⟨hwell, hcode⟩ := h
  simp only [decodeTransfer, hwell, commandOf_of_outside hcode]
  rfl

/-- Settles O52, command by command: its code spells it. -/
theorem framesDecodeToTheirCommands : Obligations.FramesDecodeToTheirCommands := by
  intro i b hb hwell
  cases i
  all_goals cases hb
  case frame => exact decode_of_malformed hwell
  case unknown => exact decode_of_unknownCode hwell
  all_goals exact decode_commandFrame hwell rfl

end Sys2Proof.Machine
end

section
/-! PROOFS. The slots' commands (chapter 2): SLOT_ERASE, CHANGEOVER_ARM and CHANGEOVER_CANCEL case by case (R21, R26, R29, R32). -/

namespace Sys2Proof.Machine

/-! ## Slot numbers (R21) -/

section Slots

variable {s : State} {i : Fin 4}

theorem withSlot_of_ge {n : Nat} (h : 4 ≤ n) (body : Fin 4 → State → Answer) (s : State) : withSlot n body s = invalid .none 0 1 s := by
  simp [withSlot, slotOf_of_ge h]

theorem withSlot_val (i : Fin 4) (body : Fin 4 → State → Answer) (s : State) : withSlot i.val body s = body i s := by
  simp [withSlot, slotOf_val]

/-- The byte that names a slot. -/
theorem toNat_slotByte (i : Fin 4) : (BitVec.ofNat 8 i.val).toNat = i.val := by
  rw [BitVec.toNat_ofNat]
  omega

/-! ## SLOT_ERASE (R26) -/

theorem eraseSlot_of_inUse (h : (s.profiles.slot i).state.inUse = true) : eraseSlot i s = refuse .inUse s := if_pos h

theorem eraseSlot_of_free (h : (s.profiles.slot i).state.inUse = false) :
    eraseSlot i s = answerOk [] { s with profiles := s.profiles.setSlot i ⟨.empty, none, none⟩ } :=
  if_neg (Bool.eq_false_iff.mp h)

theorem exec_slotErase_of_answer {t : State} {p : PortId} {tag n : Byte} (h : s.CanEnd p (commandFrame 0x24 tag [n]))
    {result : Result} {reason : Reason} {answer : List Byte}
    (ha : withSlot n.toNat eraseSlot (s.ended p (commandFrame 0x24 tag [n])) = ⟨t, result, reason, answer⟩) :
    exec (.slotErase p tag [n]) s = .next (respond p ⟨0x24, tag, result, reason, answer⟩ t) :=
  congrArg Host.Outcome.next (takeCommand_of_answer h (by decide : 1 ≤ 61) ha)

/-! ## CHANGEOVER_ARM (R29) -/

theorem mem_slots (j : Fin 4) : j ∈ ([0, 1, 2, 3] : List (Fin 4)) := by
  revert j
  decide

theorem busy_iff (x : Profiles) : x.busy = true ↔ ∃ j : Fin 4, (x.slot j).state = .staged ∨ (x.slot j).state = .retiring := by
  simp only [Profiles.busy, List.any_eq_true, Bool.or_eq_true, beq_iff_eq]
  exact exists_congr fun j => and_iff_right (mem_slots j)

theorem triggerOf_of_ge {k : Nat} (h : 3 ≤ k) (n : Serial) : triggerOf k n = none := by
  match k, h with
  | k + 3, _ => rfl

theorem triggerOf_byte {kind : Byte} (h : kind.toNat < 3) (n : Serial) :
    triggerOf kind.toNat n = some (if kind = 0 then .next else if kind = 1 then .serial n else .splice false) := by
  have hkind : kind = 0 ∨ kind = 1 ∨ kind = 2 := by bv_omega
  obtain rfl | rfl | rfl := hkind <;> rfl

theorem notNewer_iff (kind : Byte) (k newest : Serial) :
    (if kind = 0 then Trigger.next else if kind = 1 then .serial k else .splice false).notNewer newest = true
      ↔ kind = 1 ∧ ¬(1 ≤ (k - newest).toNat ∧ (k - newest).toNat ≤ 2 ^ 31 - 1) := by
  by_cases h0 : kind = 0
  · rw [if_pos h0, h0]
    exact iff_of_false nofun fun h => absurd h.1 (by decide)
  · rw [if_neg h0]
    by_cases h1 : kind = 1
    · rw [if_pos h1, ← serialNewer_iff]
      simp [Trigger.notNewer, h1]
    · rw [if_neg h1]
      exact iff_of_false nofun fun h => h1 h.1

section Arm

variable {t : Trigger}

theorem armChangeover_of_off (h : s.run.runState = .off) : armChangeover t i s = refuse .state s := if_pos h

theorem armChangeover_of_busy (h : s.run.runState ≠ .off) (hb : s.profiles.busy = true) : armChangeover t i s = refuse .busy s := by
  simp [armChangeover, h, hb]

theorem armChangeover_of_not_ready (h : s.run.runState ≠ .off) (hb : s.profiles.busy = false)
    (hi : (s.profiles.slot i).state ≠ .ready) : armChangeover t i s = refuse .inUse s := by
  simp [armChangeover, h, hb, hi]

theorem armChangeover_of_not_newer (h : s.run.runState ≠ .off) (hb : s.profiles.busy = false)
    (hi : (s.profiles.slot i).state = .ready) (hn : t.notNewer (s.track.nextSerial - 1) = true) :
    armChangeover t i s = invalid .none 0 3 s := by
  simp only [armChangeover, h, hb, hi, hn, ne_eq, not_true_eq_false, Bool.false_eq_true, if_false, if_true]

theorem armChangeover_of_unfit (h : s.run.runState ≠ .off) (hb : s.profiles.busy = false)
    (hi : (s.profiles.slot i).state = .ready) (hn : t.notNewer (s.track.nextSerial - 1) = false) {part : ProfileSection}
    (hu : s.profiles.firstUnfit s.pitch i = some part) : armChangeover t i s = invalid .profileSection part.code 0 s := by
  simp only [armChangeover, h, hb, hi, hn, hu, ne_eq, not_true_eq_false, Bool.false_eq_true, if_false]

theorem armChangeover_of_fit (h : s.run.runState ≠ .off) (hb : s.profiles.busy = false)
    (hi : (s.profiles.slot i).state = .ready) (hn : t.notNewer (s.track.nextSerial - 1) = false)
    (hu : s.profiles.firstUnfit s.pitch i = none) :
    armChangeover t i s = answerOk [] { s with profiles := { s.profiles.setState i .staged with arm := some ⟨i, t⟩ } } := by
  simp only [armChangeover, h, hb, hi, hn, hu, ne_eq, not_true_eq_false, Bool.false_eq_true, if_false]

end Arm

theorem exec_changeoverArm_of_answer {t : State} {p : PortId} {tag n kind : Byte} {serial : List Byte} (hl : serial.length = 4)
    (h : s.CanEnd p (commandFrame 0x28 tag (n :: kind :: serial))) {result : Result} {reason : Reason} {answer : List Byte}
    (ha : withSlot n.toNat (armTrigger (triggerOf kind.toNat (u32At serial 0))) (s.ended p (commandFrame 0x28 tag (n :: kind :: serial)))
      = ⟨t, result, reason, answer⟩) :
    exec (.changeoverArm p tag (n :: kind :: serial)) s = .next (respond p ⟨0x28, tag, result, reason, answer⟩ t) := by
  have hlength : (n :: kind :: serial).length = 6 := by simp [hl]
  have htaken := takeCommand_of_answer h (by omega) (body := withSlot n.toNat (armTrigger (triggerOf kind.toNat (u32At serial 0)))) ha
  rw [hlength] at htaken
  exact congrArg Host.Outcome.next htaken

/-! ## CHANGEOVER_CANCEL (R32) -/

theorem staged_eq_none {x : Profiles} (h : ∀ j : Fin 4, (x.slot j).state ≠ .staged) : x.staged = none := by
  unfold Profiles.staged
  rw [List.find?_eq_none]
  intro j _
  simp [h j]

theorem staged_eq_some {x : Profiles} (h : (x.slot i).state = .staged) (only : ∀ j : Fin 4, (x.slot j).state = .staged → j = i) :
    x.staged = some i := by
  cases hf : x.staged with
  | none =>
    exact absurd h (by simpa using List.find?_eq_none.mp hf i (mem_slots i))
  | some j => rw [only j (state_of_staged hf)]

theorem cancelChangeover_of_none (h : s.profiles.staged = none) : cancelChangeover s = refuse .empty s := by
  simp [cancelChangeover, h]

theorem cancelChangeover_of_some (h : s.profiles.staged = some i) :
    cancelChangeover s
      = answerOk [BitVec.ofNat 8 i.val] { s with profiles := { s.profiles.setState i .ready with arm := none } } := by
  simp [cancelChangeover, h, byteOf]

theorem exec_changeoverCancel_of_answer {t : State} {p : PortId} {tag : Byte} (h : s.CanEnd p (commandFrame 0x29 tag []))
    {result : Result} {reason : Reason} {answer : List Byte}
    (ha : cancelChangeover (s.ended p (commandFrame 0x29 tag [])) = ⟨t, result, reason, answer⟩) :
    exec (.changeoverCancel p tag []) s = .next (respond p ⟨0x29, tag, result, reason, answer⟩ t) :=
  congrArg Host.Outcome.next (takeCommand_of_answer h (Nat.zero_le _) ha)

end Slots

/-- Settles O45, command by command and case by case in R26's, R29's and R32's order. -/
theorem slotsAreErasedArmedAndCancelled : Obligations.SlotsAreErasedArmedAndCancelled := by
  intro p tag i s n
  have hn : n.toNat = i.val := toNat_slotByte i
  refine ⟨fun m hm => ⟨fun hend => ?_, fun rest hrest hend => ?_⟩, fun hend => ?_, fun kind serial hserial hend => ?_, fun hend => ?_⟩
  · exact exec_slotErase_of_answer hend (withSlot_of_ge hm ..)
  · obtain ⟨kind, serial, rfl⟩ := List.exists_cons_of_length_eq_add_one hrest
    exact exec_changeoverArm_of_answer (by simpa using hrest) hend (withSlot_of_ge hm ..)
  · intro ended state
    have hslot (body : Fin 4 → State → Answer) : withSlot n.toNat body ended = body i ended := by rw [hn, withSlot_val]
    have hprofiles : ended.profiles = s.profiles := ended_profiles ..
    have hstate : (ended.profiles.slot i).state = state := by rw [hprofiles]
    refine ⟨fun hfree => ?_, fun huse => ?_⟩
    · exact exec_slotErase_of_answer hend ((hslot _).trans (eraseSlot_of_free ((not_inUse_iff _).mpr (by rw [hstate]; exact hfree))))
    · exact exec_slotErase_of_answer hend ((hslot _).trans (eraseSlot_of_inUse ((inUse_iff _).mpr (by rw [hstate]; exact huse))))
  · intro ended reply k newest trigger busy newer
    have hframe := ended_frame p (commandFrame 0x28 tag (n :: kind :: serial)) s
    have hpitch : ended.pitch = s.pitch := by simp [ended, State.pitch]
    have hprofiles : ended.profiles = s.profiles := ended_profiles ..
    have hrun : ended.run = s.run := by simp [ended]
    have htrack : ended.track = s.track := by simp [ended]
    have hanswer (r : Answer) (h : armTrigger (triggerOf kind.toNat k) i ended = r) : reply r.result r.reason r.payload r.part :=
      exec_changeoverArm_of_answer hserial hend (by rw [hn, withSlot_val]; exact h)
    refine ⟨fun hk => hanswer (invalid .none 0 2 ended) (by rw [triggerOf_of_ge hk]; rfl), fun hk => ?_⟩
    have harm (r : Answer) (h : armChangeover trigger i ended = r) : reply r.result r.reason r.payload r.part :=
      hanswer r (by rw [triggerOf_byte hk]; exact h)
    refine ⟨fun hoff => harm _ (armChangeover_of_off (by rwa [hrun])), fun hnotoff => ?_⟩
    have hnotoff : ended.run.runState ≠ .off := by rwa [hrun]
    have hbusy : ended.profiles.busy = true ↔ busy := by rw [busy_iff, hprofiles]
    refine ⟨fun hb => harm _ (armChangeover_of_busy hnotoff (hbusy.mpr hb)), fun hb => ?_⟩
    have hb : ended.profiles.busy = false := Bool.eq_false_iff.mpr (mt hbusy.mp hb)
    refine ⟨fun hi => harm _ (armChangeover_of_not_ready hnotoff hb (by rwa [hprofiles])), fun hi => ?_⟩
    have hi : (ended.profiles.slot i).state = .ready := by rwa [hprofiles]
    have hnewer : trigger.notNewer (ended.track.nextSerial - 1) = true ↔ kind = 1 ∧ ¬newer := by
      rw [htrack]
      exact notNewer_iff kind k newest
    have hnew (h : kind = 1 → newer) : trigger.notNewer (ended.track.nextSerial - 1) = false :=
      Bool.eq_false_iff.mpr fun hnot => (hnewer.mp hnot).2 (h (hnewer.mp hnot).1)
    refine ⟨fun h1 hnot => harm _ (armChangeover_of_not_newer hnotoff hb hi (hnewer.mpr ⟨h1, hnot⟩)), fun part h1 hunfit => ?_,
      fun h1 hfits => ?_⟩
    · exact harm _ (armChangeover_of_unfit hnotoff hb hi (hnew h1) (by rw [hprofiles, hpitch]; exact firstUnfit_of_firstUnfit hunfit))
    · exact harm _ (armChangeover_of_fit hnotoff hb hi (hnew h1) (by rw [hprofiles, hpitch]; exact firstUnfit_of_slotFits hfits))
  · intro ended
    have hprofiles : ended.profiles = s.profiles := ended_profiles ..
    refine ⟨fun hnone => ?_, fun hi honly => ?_⟩
    · exact exec_changeoverCancel_of_answer hend (cancelChangeover_of_none (by rw [hprofiles]; exact staged_eq_none hnone))
    · exact exec_changeoverCancel_of_answer hend (cancelChangeover_of_some (by rw [hprofiles]; exact staged_eq_some hi honly))

end Sys2Proof.Machine
end

section
/-! PROOFS. STAGE_WRITE (chapter 2): its checks in R23's order, and what a section's bytes hold (R17 to R19, R206). -/

namespace Sys2Proof.Machine

/-! ## Sets and numbers in bytes (R203) -/

/-- The mask of the low `k` bits of a number. -/
theorem maskOf_testBits (k n : Nat) : maskOf ((List.range k).map n.testBit) = n % 2 ^ k := by
  induction k generalizing n with
  | zero => simp [maskOf, Nat.mod_one]
  | succ k ih =>
    have htail : (List.range k).map (n.testBit ∘ Nat.succ) = (List.range k).map (n / 2).testBit :=
      List.map_congr_left fun i _ => Nat.testBit_succ n i
    have hhead : (if n.testBit 0 then 1 else 0) = n % 2 := by
      have := Nat.mod_two_eq_zero_or_one n
      rw [Nat.testBit_zero]
      split <;> simp_all
    have hsplit : n % 2 ^ (k + 1) = n % 2 + 2 * (n / 2 % 2 ^ k) := by
      rw [Nat.pow_succ, Nat.mul_comm (2 ^ k) 2, Nat.mod_mul]
    rw [List.range_succ_eq_map, List.map_cons, List.map_map, htail, maskOf, ih, hhead, hsplit]

theorem mask_rejectSetOf {n : Nat} (h : n < 64) : (rejectSetOf n).mask = n :=
  (maskOf_testBits 6 n).trans (Nat.mod_eq_of_lt h)

theorem mask_sourceSetOf {n : Nat} (h : n < 16) : (sourceSetOf n).mask = n :=
  (maskOf_testBits 4 n).trans (Nat.mod_eq_of_lt h)

theorem toNat_u32At (c : List Byte) (i : Nat) : (u32At c i).toNat = 65536 * u16At c i + u16At c (i + 2) := by
  have hhigh := u16At_lt c i
  have hlow := u16At_lt c (i + 2)
  rw [u32At, BitVec.toNat_ofNat]
  omega

/-! ## The sections of a profile (R17 to R19, R206) -/

/-- The checks of R17 over the fields of a HEADER. -/
theorem headerChecks_iff (c : List Byte) :
    headerChecks c = true ↔
      10 ≤ u16At c 4 ∧ u16At c 4 ≤ 50000 ∧ u16At c 6 ≤ 5000 ∧ u8At c 8 < 64 ∧ u8At c 9 ≤ 1 ∧ u8At c 10 ≤ 1 ∧ u8At c 11 < 16
        ∧ u8At c 12 ≤ 1 ∧ (u8At c 10 = 0 → u8At c 11 = 0) := by
  simp [headerChecks, and_assoc, imp_iff_not_or]

/-- A HEADER whose checks pass holds what its bytes say (R206). -/
theorem headerOf_fields {c : List Byte} (h : headerChecks c = true) :
    ∃ x : Header, headerOf c = some x ∧ x.order.toNat = 65536 * u16At c 0 + u16At c 2 ∧ x.batchTarget = u16At c 4
      ∧ x.overrun = u16At c 6 ∧ x.rejects.mask = u8At c 8 ∧ x.policy.code = u8At c 9 ∧ x.cameraUse = decide (u8At c 10 = 1)
      ∧ x.expected.mask = u8At c 11 ∧ x.haltOnLoss = decide (u8At c 12 = 1) := by
  obtain ⟨-, -, -, hrejects, hpolicy, -, hexpected, -, -⟩ := (headerChecks_iff c).mp h
  refine ⟨_, if_pos h, toNat_u32At c 0, rfl, rfl, mask_rejectSetOf hrejects, ?_, rfl, mask_sourceSetOf hexpected, rfl⟩
  dsimp only
  generalize u8At c 9 = k at hpolicy
  interval_cases k <;> rfl

theorem segmentsAt_eq (c : List Byte) (k i : Nat) :
    segmentsAt c k i = (List.range k).map fun j => ⟨u16At c (i + 4 * j), u16At c (i + 4 * j + 2)⟩ := by
  induction k generalizing i with
  | zero => rfl
  | succ k ih =>
    rw [segmentsAt, ih, List.range_succ_eq_map, List.map_cons, List.map_map]
    refine congrArg (List.cons _) (List.map_congr_left fun j _ => ?_)
    simp only [Function.comp_apply, Nat.succ_eq_add_one]
    rw [show i + 4 + 4 * j = i + 4 * (j + 1) by omega]

theorem profileSectionOf_of_ge {n : Nat} (h : 7 ≤ n) : profileSectionOf n = none := by
  match n, h with
  | k + 3, h => exact dif_neg (by omega)

/-! ## The checks of STAGE_WRITE (R23) -/

section Write

variable {s : State} {p : PortId} {code : Byte} {content : List Byte} {part : ProfileSection}

theorem writeStaging_of_not_holder (h : s.staging.holder ≠ some p) (payload : List Byte) :
    writeStaging p payload s = refuse .held s := if_pos h

theorem writeStaging_of_failed (h : s.staging.holder = some p) (hf : s.staging.failed = true) (payload : List Byte) :
    writeStaging p payload s = refuse .stagingFailed s := by
  simp [writeStaging, h, hf]

theorem writeStaging_of_no_section (h : s.staging.holder = some p) (hf : s.staging.failed = false)
    (hs : profileSectionOf code.toNat = none) : writeStaging p (code :: content) s = failStaging .none 0 1 s := by
  simp [writeStaging, writeStaged, h, hf, hs]

theorem writeStaging_of_section (h : s.staging.holder = some p) (hf : s.staging.failed = false)
    (hs : profileSectionOf code.toNat = some part) : writeStaging p (code :: content) s = storeSection part content s := by
  simp [writeStaging, writeStaged, h, hf, hs]

theorem storeSection_of_length (h : content.length ≠ part.length content) :
    storeSection part content s = failStaging .length 0 0 s := if_pos h

theorem storeSection_of_unfit (h : content.length = part.length content)
    (hs : s.staging.store s.config.checkPitch part content = none) :
    storeSection part content s = failStaging .profileSection part.code 0 s := by
  simp [storeSection, h, hs]

theorem storeSection_of_fit (h : content.length = part.length content) {x : Staging}
    (hs : s.staging.store s.config.checkPitch part content = some x) :
    storeSection part content s = answerOk [] (s.setStaging x) := by
  simp [storeSection, h, hs]

theorem exec_stageWrite_of_answer {t : State} {tag : Byte} (hl : content.length ≤ 60)
    (h : s.CanEnd p (commandFrame 0x21 tag (code :: content))) {result : Result} {reason : Reason} {answer : List Byte}
    (ha : writeStaging p (code :: content) (s.ended p (commandFrame 0x21 tag (code :: content))) = ⟨t, result, reason, answer⟩) :
    exec (.stageWrite p tag (code :: content)) s = .next (respond p ⟨0x21, tag, result, reason, answer⟩ t) := by
  refine congrArg Host.Outcome.next ?_
  rw [takeCommand_of_canEnd h (by simp only [List.length_cons]; omega), ha]

end Write

/-- Settles O43: the holder and the failed flag, then the section, its length and its content. -/
theorem stageWriteChecksItsSection : Obligations.StageWriteChecksItsSection := by
  intro p tag code content s hl hend ended area reply fails stores pitch at1 at2 fits
  have hstaging : ended.staging = area := ended_staging ..
  have hpitch : ended.config.checkPitch = pitch := by
    have hconfig : ended.config = s.config := by simp [ended]
    rw [hconfig]
    rfl
  have hanswer (r : Answer) (h : writeStaging p (code :: content) ended = r) : reply r.result r.reason r.payload r.part :=
    exec_stageWrite_of_answer hl hend h
  refine ⟨fun hnot => hanswer _ (writeStaging_of_not_holder (by rwa [hstaging]) _),
    fun hown hfailed => hanswer _ (writeStaging_of_failed (by rwa [hstaging]) (by rwa [hstaging]) _), fun hown hclean => ?_⟩
  have hown : ended.staging.holder = some p := by rwa [hstaging]
  have hclean : ended.staging.failed = false := by rwa [hstaging]
  have hfails (kind : InvalidKind) (item field : Nat) (h : writeStaging p (code :: content) ended = failStaging kind item field ended) :
      fails (BitVec.ofNat 8 kind.code) (BitVec.ofNat 8 item) (BitVec.ofNat 8 field) := by
    show reply .refused .invalid _ (ended.setStaging { area with failed := true })
    rw [← hstaging]
    exact hanswer _ h
  have hsection {part : ProfileSection} (h : code.toNat = part.code) :
      writeStaging p (code :: content) ended = storeSection part content ended :=
    writeStaging_of_section hown hclean (by rw [h, profileSectionOf_code])
  have hlength {part : ProfileSection} (h : code.toNat = part.code) (hn : content.length ≠ part.length content) : fails 1 0 0 :=
    hfails .length 0 0 ((hsection h).trans (storeSection_of_length hn))
  have hunfit {part : ProfileSection} (h : code.toNat = part.code) (hn : content.length = part.length content)
      (hs : area.store pitch part content = none) : fails 2 code 0 := by
    have hcode : BitVec.ofNat 8 part.code = code := by rw [← h, BitVec.ofNat_toNat, BitVec.setWidth_eq]
    have hfailed := hfails .profileSection part.code 0
      ((hsection h).trans (storeSection_of_unfit hn (by rw [hstaging, hpitch]; exact hs)))
    rwa [hcode] at hfailed
  have hstores {part : ProfileSection} (h : code.toNat = part.code) (hn : content.length = part.length content) {x : Staging}
      (hs : area.store pitch part content = some x) : stores x :=
    hanswer _ ((hsection h).trans (storeSection_of_fit hn (by rw [hstaging, hpitch]; exact hs)))
  refine ⟨fun hcode => hfails .none 0 1 (writeStaging_of_no_section hown hclean (profileSectionOf_of_ge hcode)), fun hbad => ?_,
    fun hcode hn => ?_, fun hcode hn => ?_, fun hcode hn => ?_, fun v hcode hn => ?_⟩
  · obtain ⟨hcode, hn⟩ | ⟨hcode, hn⟩ | ⟨hcode, hn⟩ | ⟨hlow, hhigh, hn⟩ := hbad
    · exact hlength (part := .header) (by rw [hcode]; rfl) hn
    · exact hlength (part := .print) (by rw [hcode]; rfl) hn
    · exact hlength (part := .patch) (by rw [hcode]; rfl) hn
    · exact hlength (part := .gum ⟨code.toNat - 3, by omega⟩) (by simp only [ProfileSection.code]; omega) hn
  · intro inRange
    have hchecks : headerChecks content = true ↔ inRange := headerChecks_iff content
    refine ⟨fun hout => ?_, fun hin => ?_⟩
    · have hfailed := hunfit (part := .header) (by rw [hcode]; rfl) hn (by simp [Staging.store, headerOf, mt hchecks.mp hout])
      rwa [hcode] at hfailed
    · obtain ⟨x, hx, horder, htarget, hoverrun, hrejects, hpolicy, hcamera, hexpected, hhalt⟩ := headerOf_fields (hchecks.mpr hin)
      exact ⟨x, horder, htarget, hoverrun, hrejects, hpolicy, hcamera, hexpected, hhalt,
        hstores (part := .header) (by rw [hcode]; rfl) hn (by simp [Staging.store, hx])⟩
  · have hchecks : (printOf content).fits pitch = true ↔ fits (at2 0) (at2 2) (at2 4) := windowFits_iff ..
    refine ⟨fun hout => ?_, fun hin => ?_⟩
    · have hfailed := hunfit (part := .print) (by rw [hcode]; rfl) hn (if_neg (mt hchecks.mp hout))
      rwa [hcode] at hfailed
    · exact hstores (part := .print) (by rw [hcode]; rfl) hn (if_pos (hchecks.mpr hin))
  · intro inRange
    have hchecks : (patchOf content).fits pitch = true ↔ inRange := by
      rw [PatchSection.fits, Bool.and_eq_true, decide_eq_true_iff, windowFits_iff]
      exact Iff.rfl
    refine ⟨fun hout => ?_, fun hin => ?_⟩
    · have hfailed := hunfit (part := .patch) (by rw [hcode]; rfl) hn (if_neg (mt hchecks.mp hout))
      rwa [hcode] at hfailed
    · exact hstores (part := .patch) (by rw [hcode]; rfl) hn (if_pos (hchecks.mpr hin))
  · intro segments
    have hsegments : gumOf content = segments := by
      rw [gumOf, segmentsAt_eq]
      refine List.map_congr_left fun k _ => ?_
      rw [show 1 + 4 * k + 2 = 3 + 4 * k by omega]
      rfl
    have hchecks : gumFits pitch (gumOf content) = true ↔ SegmentsFit pitch segments := by rw [gumFits_iff, hsegments]
    refine ⟨fun hout => hunfit (part := .gum v) hcode hn (if_neg (mt hchecks.mp hout)), fun hin => ?_⟩
    rw [← hsegments]
    exact hstores (part := .gum v) hcode hn (if_pos (hchecks.mpr hin))

end Sys2Proof.Machine
end

section
/-! PROOFS. Notices (chapter 11): how a port takes one (R195 to R197), SUBSCRIBE (R198), and the records NOTICE_READ returns (R199). -/

namespace Sys2Proof.Machine

/-! ## Posting (R195 to R197) -/

section Queue

variable {x : Port} {n : Notice}

theorem queueNotice_of_unsubscribed (h : x.subscribes n = false) : x.queueNotice n = x := by
  simp [queueNotice_eq, h]

theorem queueNotice_of_room (h : x.subscribes n = true) (hl : x.lost = 0) (hq : x.notices.length < 32) :
    x.queueNotice n = { x with notices := x.notices ++ [n], attention := true } := by
  rw [queueNotice_eq, if_pos h, if_pos ⟨hl, hq⟩]

theorem queueNotice_of_gap (h : x.subscribes n = true) (hl : 1 ≤ x.lost) (hq : x.notices.length ≤ 30) :
    x.queueNotice n = { x with notices := x.notices ++ [.gap x.lost, n], attention := true, lost := 0 } := by
  rw [queueNotice_eq, if_pos h, if_neg (by omega), if_pos ⟨hl, hq⟩]

theorem queueNotice_of_dropped (h : x.subscribes n = true)
    (hq : x.lost = 0 ∧ 32 ≤ x.notices.length ∨ 1 ≤ x.lost ∧ 31 ≤ x.notices.length) :
    x.queueNotice n = { x with lost := Nat.min 65535 (x.lost + 1) } := by
  rw [queueNotice_eq, if_pos h, if_neg (by omega), if_neg (by omega)]

end Queue

/-! ## The records that fit (R199) -/

/-- The bytes of the first `k` records of a queue. -/
def recordBytes (queue : List Notice) (k : Nat) : List Byte := layOut ((queue.take k).flatMap Notice.items)

theorem recordBytes_eq (queue : List Notice) (k : Nat) : recordBytes queue k = (queue.take k).flatMap Notice.bytes := by
  rw [recordBytes, layOut_flatMap]
  exact congrArg (fun f => (queue.take k).flatMap f) (funext fun n => (noticeBytes_eq n).symm)

theorem recordBytes_cons (n : Notice) (queue : List Notice) (k : Nat) :
    (recordBytes (n :: queue) (k + 1)).length = n.bytes.length + (recordBytes queue k).length := by
  simp only [recordBytes_eq, List.take_succ_cons, List.flatMap_cons, List.length_append]

/-- Every record fits into a response by itself (R205). -/
theorem notice_bytes_le (n : Notice) : n.bytes.length ≤ 38 := by
  have hbyte (k : Nat) : (byteOf k).length = 1 := rfl
  have htwo (k : Nat) : (bytes2 k).length = 2 := rfl
  have hfour (k : Nat) : (bytes4 k).length = 4 := rfl
  have hserial (k : Serial) : (serialBytes k).length = 4 := rfl
  have hflag (b : Bool) : (flagByte b).length = 1 := rfl
  have hsigned (k : Int) : (signed2 k).length = 2 := rfl
  cases n with
  | runState before after cause active high next causes permit =>
    cases active <;> cases high <;>
      simp [Notice.bytes, Notice.content, optionalItem, hbyte, hserial, hflag]
  | satellite entry before after value round q =>
    cases value <;> simp [Notice.bytes, Notice.content, optionalItem, hbyte, htwo, hserial]
  | _ =>
    simp [Notice.bytes, Notice.content, batchBytes_length, hbyte, htwo, hfour, hserial, hflag, hsigned]

/-- As many of the oldest records as `n` allows and as fit whole in the room. -/
theorem recordsThatFit_spec (n room : Nat) (queue : List Notice) :
    recordsThatFit n room queue ≤ n ∧ recordsThatFit n room queue ≤ queue.length
      ∧ (recordBytes queue (recordsThatFit n room queue)).length ≤ room
      ∧ (recordsThatFit n room queue < n → recordsThatFit n room queue < queue.length →
          room < (recordBytes queue (recordsThatFit n room queue + 1)).length) := by
  induction n generalizing room queue with
  | zero => exact ⟨Nat.le_refl 0, Nat.zero_le _, Nat.zero_le _, fun h => absurd h (Nat.lt_irrefl 0)⟩
  | succ n ih =>
    cases queue with
    | nil => exact ⟨Nat.zero_le _, Nat.le_refl 0, Nat.zero_le _, fun _ h => absurd h (Nat.lt_irrefl 0)⟩
    | cons x xs =>
      unfold recordsThatFit
      split
      · next hfits =>
        obtain ⟨hn, hlength, hroom, hmore⟩ := ih (room - x.bytes.length) xs
        refine ⟨by omega, by simpa using hlength, ?_, fun h1 h2 => ?_⟩
        · rw [recordBytes_cons]
          omega
        · have := hmore (by omega) (by simpa using h2)
          rw [recordBytes_cons]
          omega
      · next hfits =>
        refine ⟨Nat.zero_le _, Nat.zero_le _, Nat.zero_le _, fun _ _ => ?_⟩
        rw [recordBytes_cons]
        omega

/-- The first record always fits, so that a read that may return one returns one. -/
theorem one_le_recordsThatFit {n : Nat} {queue : List Notice} (hq : queue ≠ []) (hn : n ≠ 0) : 1 ≤ recordsThatFit n 246 queue := by
  obtain ⟨x, xs, rfl⟩ := List.exists_cons_of_ne_nil hq
  obtain ⟨m, rfl⟩ := Nat.exists_eq_succ_of_ne_zero hn
  have hfits : x.bytes.length ≤ 246 := (notice_bytes_le x).trans (by decide)
  simp [recordsThatFit, hfits]

/-! ## SUBSCRIBE and NOTICE_READ (R198, R199) -/

theorem mask_noticeKindsOf (n : Nat) : (noticeKindsOf n).mask = n % 2048 := maskOf_testBits 11 n

theorem exec_subscribe_of_answer {s t : State} {p : PortId} {tag : Byte} {payload : List Byte} (hl : payload.length = 2)
    (h : s.CanEnd p (commandFrame 0x02 tag payload)) {result : Result} {reason : Reason} {answer : List Byte}
    (ha : subscribe p (u16At payload 0) (s.ended p (commandFrame 0x02 tag payload)) = ⟨t, result, reason, answer⟩) :
    exec (.subscribe p tag payload) s = .next (respond p ⟨0x02, tag, result, reason, answer⟩ t) := by
  have htaken := takeCommand_of_answer h (by omega) ha
  rw [hl] at htaken
  exact congrArg Host.Outcome.next htaken

theorem exec_noticeRead_of_answer {s t : State} {p : PortId} {tag : Byte} {payload : List Byte} (hl : payload.length = 1)
    (h : s.CanEnd p (commandFrame 0x03 tag payload)) {result : Result} {reason : Reason} {answer : List Byte}
    (ha : readNotices p (u8At payload 0) (s.ended p (commandFrame 0x03 tag payload)) = ⟨t, result, reason, answer⟩) :
    exec (.noticeRead p tag payload) s = .next (respond p ⟨0x03, tag, result, reason, answer⟩ t) := by
  have htaken := takeCommand_of_answer h (by omega) ha
  rw [hl] at htaken
  exact congrArg Host.Outcome.next htaken

/-- The end of a transfer leaves its port's notices and lost count (R196). -/
theorem ended_queue {s : State} {p : PortId} {frame : List Byte} (h : s.CanEnd p frame) :
    ((s.ended p frame).port p).notices = (s.port p).notices ∧ ((s.ended p frame).port p).lost = (s.port p).lost := by
  obtain ⟨bytes, -, hended⟩ := ended_port h
  rw [hended, setPort_port_self]
  unfold Port.endTransfer
  split <;> exact ⟨rfl, rfl⟩

theorem readNotices_eq {s : State} {p : PortId} {queue : List Notice} {lost : Nat} (hq : (s.port p).notices = queue)
    (hl : (s.port p).lost = lost) (n : Nat) :
    let k := recordsThatFit (Nat.min n 8) 246 queue
    readNotices p n s
      = answerOk (byteOf k ++ byteOf (queue.length - k) ++ bytes2 lost ++ recordBytes queue k)
          (if k = 0 then s else s.setPort p ((s.port p).withNotices (queue.drop k))) := by
  intro k
  subst hq hl
  rw [recordBytes_eq, ← List.length_drop]
  rfl

/-- Settles O41: a posted notice by the port's subscription and room, then the two commands. -/
theorem noticesAreSubscribedAndRead : Obligations.NoticesAreSubscribedAndRead := by
  intro p tag payload s
  refine ⟨fun x => ?_, fun hl hend => ?_, fun hl hend => ?_⟩
  · intro port after dropped
    have hafter : after = port.queueNotice x := post_port x s p
    rw [hafter]
    exact ⟨rfl, fun xs => rfl, fun h => queueNotice_of_unsubscribed h, fun h =>
      ⟨fun hl hq => queueNotice_of_room h hl hq, fun hl hq => queueNotice_of_dropped h (.inl ⟨hl, hq⟩),
        fun hl hq => queueNotice_of_gap h hl hq, fun hl hq => queueNotice_of_dropped h (.inr ⟨hl, hq⟩)⟩⟩
  · intro ended m
    refine ⟨noticeKindsOf m, mask_noticeKindsOf m, exec_subscribe_of_answer hl hend ?_⟩
    rw [subscribe, mask_noticeKindsOf]
    rfl
  · intro ended queue n records size
    obtain ⟨hnotices, hlost⟩ := ended_queue hend
    obtain ⟨hle, hlength, hroom, hmore⟩ := recordsThatFit_spec n 246 queue
    refine ⟨recordsThatFit n 246 queue, hle, hlength, hroom, hmore, one_le_recordsThatFit,
      exec_noticeRead_of_answer hl hend (readNotices_eq hnotices hlost _)⟩

end Sys2Proof.Machine
end

section
/-! PROOFS. START (R163, R187), CONFIG_WRITE (R184) and the batch counter's commands (R130, R138, R139), case by case. -/

namespace Sys2Proof.Machine

/-! ## Commands with a payload of their length -/

theorem exec_start_of_answer {s t : State} {p : PortId} {tag n : Byte} (h : s.CanEnd p (commandFrame 0x11 tag [n]))
    {result : Result} {reason : Reason} {answer : List Byte}
    (ha : startRun n.toNat (s.ended p (commandFrame 0x11 tag [n])) = ⟨t, result, reason, answer⟩) :
    exec (.start p tag [n]) s = .next (respond p ⟨0x11, tag, result, reason, answer⟩ t) :=
  congrArg Host.Outcome.next (takeCommand_of_answer h (by decide : 1 ≤ 61) ha)

theorem exec_configWrite_of_answer {s t : State} {p : PortId} {tag code : Byte} {content : List Byte} (hl : content.length ≤ 60)
    (h : s.CanEnd p (commandFrame 0x18 tag (code :: content))) {result : Result} {reason : Reason} {answer : List Byte}
    (ha : writeConfig (code :: content) (s.ended p (commandFrame 0x18 tag (code :: content))) = ⟨t, result, reason, answer⟩) :
    exec (.configWrite p tag (code :: content)) s = .next (respond p ⟨0x18, tag, result, reason, answer⟩ t) := by
  refine congrArg Host.Outcome.next ?_
  rw [takeCommand_of_canEnd h (by simp only [List.length_cons]; omega), ha]

theorem exec_batchClose_of_answer {s t : State} {p : PortId} {tag : Byte} (h : s.CanEnd p (commandFrame 0x48 tag []))
    {result : Result} {reason : Reason} {answer : List Byte}
    (ha : requestClose (s.ended p (commandFrame 0x48 tag [])) = ⟨t, result, reason, answer⟩) :
    exec (.batchClose p tag []) s = .next (respond p ⟨0x48, tag, result, reason, answer⟩ t) :=
  congrArg Host.Outcome.next (takeCommand_of_answer h (Nat.zero_le _) ha)

theorem exec_batchPeek_of_answer {s t : State} {p : PortId} {tag : Byte} (h : s.CanEnd p (commandFrame 0x49 tag []))
    {result : Result} {reason : Reason} {answer : List Byte}
    (ha : peekBatch (s.ended p (commandFrame 0x49 tag [])) = ⟨t, result, reason, answer⟩) :
    exec (.batchPeek p tag []) s = .next (respond p ⟨0x49, tag, result, reason, answer⟩ t) :=
  congrArg Host.Outcome.next (takeCommand_of_answer h (Nat.zero_le _) ha)

theorem exec_batchAck_of_answer {s t : State} {p : PortId} {tag : Byte} {payload : List Byte} (hl : payload.length = 4)
    (h : s.CanEnd p (commandFrame 0x4A tag payload)) {result : Result} {reason : Reason} {answer : List Byte}
    (ha : ackBatch (u32At payload 0) (s.ended p (commandFrame 0x4A tag payload)) = ⟨t, result, reason, answer⟩) :
    exec (.batchAck p tag payload) s = .next (respond p ⟨0x4A, tag, result, reason, answer⟩ t) := by
  have htaken := takeCommand_of_answer h (by omega) ha
  rw [hl] at htaken
  exact congrArg Host.Outcome.next htaken

/-! ## START (R163, R187) -/

section Start

variable {s : State} {i : Fin 4}

theorem startRun_of_no_slot {n : Nat} (h : 4 ≤ n) : startRun n s = invalid .none 0 1 s := by
  simp [startRun, slotOf_of_ge h]

theorem startRun_of_not_off (h : s.run.runState ≠ .off) : startRun i.val s = refuse .state s := by
  simp [startRun, slotOf_val, h]

theorem startRun_of_unwritten (h : s.run.runState = .off) {x : ConfigSection} (hu : s.config.firstUnwritten = some x) :
    startRun i.val s = invalid .configSection x.code 0 s := by
  simp [startRun, slotOf_val, h, hu]

theorem startRun_of_failing (h : s.run.runState = .off) (hu : s.config.firstUnwritten = none) {k : Nat}
    (hc : firstFailing s.config.crossChecks = some k) : startRun i.val s = invalid .startCheck k 0 s := by
  simp [startRun, slotOf_val, h, hu, startChecks_eq, hc]

theorem startRun_of_not_ready (h : s.run.runState = .off) (hu : s.config.firstUnwritten = none)
    (hc : firstFailing s.config.crossChecks = none) (hi : (s.profiles.slot i).state ≠ .ready) :
    startRun i.val s = refuse .inUse s := by
  simp [startRun, slotOf_val, h, hu, startChecks_eq, hc, hi]

theorem startRun_of_unfit (h : s.run.runState = .off) (hu : s.config.firstUnwritten = none)
    (hc : firstFailing s.config.crossChecks = none) (hi : (s.profiles.slot i).state = .ready) {part : ProfileSection}
    (hf : s.profiles.firstUnfit s.pitch i = some part) : startRun i.val s = invalid .profileSection part.code 0 s := by
  simp [startRun, slotOf_val, h, hu, startChecks_eq, hc, hi, hf]

theorem startRun_of_fit (h : s.run.runState = .off) (hu : s.config.firstUnwritten = none)
    (hc : firstFailing s.config.crossChecks = none) (hi : (s.profiles.slot i).state = .ready)
    (hf : s.profiles.firstUnfit s.pitch i = none) :
    startRun i.val s = answerOk (byteOf i.val ++ serialBytes s.track.nextSerial) (takeStart i s) := by
  simp [startRun, slotOf_val, h, hu, startChecks_eq, hc, hi, hf]

theorem unwritten_eq_none (m : MachineConfig) : m.unwritten = none ↔ m.firstUnwritten = none := by
  rw [unwritten_eq, Option.map_eq_none_iff]

theorem unwritten_eq_some {m : MachineConfig} {k : Nat} (h : m.unwritten = some k) : ∃ x, m.firstUnwritten = some x ∧ x.code = k := by
  rw [unwritten_eq, Option.map_eq_some_iff] at h
  exact h

/-- After START the slot it names is the ACTIVE one (R28). -/
theorem active_of_started (hl : s.SlotsLawful) (h : s.run.runState = .off) (i : Fin 4) :
    (s.profiles.setState i .active).active = some i := by
  obtain ⟨-, -, -, hready, -⟩ := hl
  obtain ⟨j, hj, hstate⟩ := active_eq_some (p := s.profiles.setState i .active) (i := i) (by simp)
  rw [state_setState] at hstate
  split at hstate
  · next hji => rw [hj, hji]
  · obtain he | he := hready h j <;> rw [he] at hstate <;> cases hstate

/-- What a START that is taken leaves (R163, R168). -/
theorem takeStart_eq (hl : s.SlotsLawful) (h : s.run.runState = .off) (i : Fin 4) {causes : CauseSet} {track : Track} {time : Nat}
    (hcauses : s.run.causes = causes) (htrack : s.track = track) (htime : s.time = time) :
    takeStart i s
      = post
          (.runState .off .homing .start (some i) track.highWater track.nextSerial causes (decide (causes = CauseSet.empty)))
          { s with
            profiles := { s.profiles.setState i .active with arm := none }
            sat := { s.sat with running := true, firstRound := some ((time / 1000 + 1) * 1000) }
            run := ⟨.homing, causes, decide (causes = CauseSet.empty)⟩ } := by
  subst hcauses htrack htime
  have hactive := active_of_started hl h i
  have hpermit : permitOf .homing s.run.causes = decide (s.run.causes = CauseSet.empty) := by simp [permitOf_eq]
  unfold takeStart postRunState
  simp only [State.setRun, hpermit, h, reduceCtorEq, if_false, active_withArm, hactive]
  rfl

end Start

/-- Settles O46: the cases of `startRun` in R163's order. -/
theorem startBeginsARun : Obligations.StartBeginsARun := by
  intro p tag n s hlawful hend ended refused checks
  have hconfig : ended.config = s.config := by simp [ended]
  have hrun : ended.run = s.run := by simp [ended]
  have hprofiles : ended.profiles = s.profiles := ended_profiles ..
  have hpitch : ended.pitch = s.pitch := by simp [ended, State.pitch]
  have hanswer (r : Answer) (h : startRun n.toNat ended = r) :
      exec (.start p tag [n]) s = .next (respond p ⟨0x11, tag, r.result, r.reason, r.payload⟩ r.part) :=
    exec_start_of_answer hend h
  refine ⟨fun hn => hanswer _ (startRun_of_no_slot hn), fun i hi => ?_⟩
  rw [hi] at hanswer
  refine ⟨fun hr => hanswer _ (startRun_of_not_off (by rwa [hrun])), fun k hr hk => ?_, fun hr hu => ⟨fun k hbefore hk => ?_, fun hall => ?_⟩⟩
  · obtain ⟨x, hx, rfl⟩ := unwritten_eq_some hk
    exact hanswer _ (startRun_of_unwritten (by rwa [hrun]) (by rwa [hconfig]))
  · exact hanswer _ (startRun_of_failing (by rwa [hrun]) (by rwa [hconfig, ← unwritten_eq_none])
      (by rw [hconfig]; exact firstFailing_eq_some hbefore hk))
  have hr' : ended.run.runState = .off := by rwa [hrun]
  have hu' : ended.config.firstUnwritten = none := by rwa [hconfig, ← unwritten_eq_none]
  have hc : firstFailing ended.config.crossChecks = none := by rw [hconfig]; exact firstFailing_eq_none hall
  refine ⟨fun hready => hanswer _ (startRun_of_not_ready hr' hu' hc (by rwa [hprofiles])),
    fun hready => ⟨fun part hunfit => ?_, fun hfits => ?_⟩⟩
  · exact hanswer _ (startRun_of_unfit hr' hu' hc (by rwa [hprofiles]) (by rw [hprofiles, hpitch]; exact firstUnfit_of_firstUnfit hunfit))
  · intro permit
    have hlawful' : ended.SlotsLawful := slotsLawful_congr hlawful (fun j => by rw [hprofiles]) (by rw [hprofiles]) (by rw [hrun])
    have hbyte : byteOf i.val = [n] := by rw [← hi]; exact byteOf_u8At [n] 0
    have htaken := hanswer _ (startRun_of_fit hr' hu' hc (by rwa [hprofiles])
      (by rw [hprofiles, hpitch]; exact firstUnfit_of_slotFits hfits))
    have htime : ended.time = s.time := by simp [ended]
    have hserial : ended.track.nextSerial = s.track.nextSerial := by simp [ended]
    rw [hbyte, hserial, takeStart_eq hlawful' hr' i (congrArg _ hrun) (ended_track ..) htime] at htaken
    exact htaken

/-! ## CONFIG_WRITE (R184) -/

section Config

variable {s : State} {code : Byte} {content : List Byte} {x : ConfigSection}

theorem configSectionOf_of_ge {n : Nat} (h : 13 ≤ n) : configSectionOf n = none := by
  match n, h with
  | k + 5, h => exact dif_neg (by omega)

theorem writeConfig_of_no_section (h : 13 ≤ code.toNat) (content : List Byte) (s : State) :
    writeConfig (code :: content) s = invalid .none 0 1 s := by
  simp [writeConfig, configSectionOf_of_ge h]

theorem writeConfig_of_section (h : code.toNat = x.code) (content : List Byte) (s : State) :
    writeConfig (code :: content) s = writeSection x (code :: content) s := by
  simp [writeConfig, h, configSectionOf_code]

theorem writeSection_of_not_off (h : s.run.runState ≠ .off) : writeSection x (code :: content) s = refuse .state s := if_pos h

theorem writeSection_of_length (h : s.run.runState = .off) (hl : content.length ≠ contentLength x) :
    writeSection x (code :: content) s = invalid .length 0 0 s := by
  rw [← contentLength_eq] at hl
  simp [writeSection, h, hl]

theorem writeSection_of_failing (h : s.run.runState = .off) (hl : content.length = contentLength x) {k : Nat}
    (hc : firstFailing (fieldRanges s.config.checkPitch content x) = some k) :
    writeSection x (code :: content) s = invalid .configField x.code k s := by
  rw [← contentLength_eq] at hl
  rw [← checks_eq] at hc
  simp [writeSection, h, hl, hc]

theorem writeSection_of_taken (h : s.run.runState = .off) (hl : content.length = contentLength x)
    (hc : firstFailing (fieldRanges s.config.checkPitch content x) = none) :
    writeSection x (code :: content) s
      = answerOk (byteOf x.code ++ optionalItem 1 (fun y : ConfigSection => byteOf y.code) (s.config.write x content).firstUnwritten)
          { s with config := s.config.write x content } := by
  rw [← contentLength_eq] at hl
  rw [← checks_eq] at hc
  simp [writeSection, h, hl, hc]

/-- A taken write marks its section (R177, R184). -/
theorem written_write (m : MachineConfig) (x : ConfigSection) (c : List Byte) : (m.write x c).written[x.index.val] = true := by
  have hmarks : (m.write x c).written = m.written.set x.index.val true := by cases x <;> rfl
  simp only [hmarks]
  exact Vector.getElem_set_self ..

/-- The first unwritten section as an answer names it (R184). -/
theorem unwritten_layOut (m : MachineConfig) :
    optionalItem 1 (fun y : ConfigSection => byteOf y.code) m.firstUnwritten
      = match m.unwritten with
        | none => [0, 0]
        | some n => [1, BitVec.ofNat 8 n] := by
  rw [unwritten_eq]
  cases m.firstUnwritten <;> rfl

end Config

/-- Settles O49: the cases of `writeSection` in R184's order, and the round trip of a taken content. -/
theorem configurationReadsBackAsWritten : Obligations.ConfigurationReadsBackAsWritten := by
  intro p tag code content s payload hl hend ended reply
  have hconfig : ended.config = s.config := by simp [ended]
  have hrun : ended.run = s.run := by simp [ended]
  have hanswer (r : Answer) (h : writeConfig payload ended = r) : reply r.result r.reason r.payload r.part :=
    exec_configWrite_of_answer hl hend h
  refine ⟨fun hcode => hanswer _ (writeConfig_of_no_section hcode ..), fun x hcode => ?_⟩
  intro pitch checks
  have hsection (r : Answer) (h : writeSection x payload ended = r) : reply r.result r.reason r.payload r.part :=
    hanswer r ((writeConfig_of_section hcode ..).trans h)
  have hchecks : fieldRanges ended.config.checkPitch content x = checks := by
    rw [hconfig]
    rfl
  have hbyte : byteOf x.code = [code] := by rw [← hcode]; exact byteOf_u8At [code] 0
  refine ⟨fun hr => hsection _ (writeSection_of_not_off (by rwa [hrun])), fun hr hn => hsection _ (writeSection_of_length (by rwa [hrun]) hn),
    fun k hr hn hbefore hk => ?_, fun hr hn hall => ?_⟩
  · have hrefused := hsection _ (writeSection_of_failing (by rwa [hrun]) hn (by rw [hchecks]; exact firstFailing_eq_some hbefore hk))
    have hpayload : (invalid .configField x.code (k + 1) ended).payload = [4, code, BitVec.ofNat 8 (k + 1)] := by
      show byteOf 4 ++ byteOf x.code ++ byteOf (k + 1) = _
      rw [hbyte]
      rfl
    rwa [hpayload] at hrefused
  · have htaken := hsection _ (writeSection_of_taken (by rwa [hrun]) hn (by rw [hchecks]; exact firstFailing_eq_none hall))
    have hranges : ∀ b ∈ x.checks s.config.checkPitch content, b = true := by
      rw [checks_eq]
      exact hall
    refine ⟨s.config.write x content, ?_, write_holds _ _ _ hranges, ?_, written_write .., write_keepsOthers ..⟩
    · rw [hconfig, hbyte, unwritten_layOut] at htaken
      exact htaken
    · rw [← configBytes_eq]
      exact write_reads_back _ _ _ hn hranges

/-! ## The batch counter's commands (R130, R138, R139) -/

section Batch

variable {s : State}

theorem requestClose_of_empty (h : s.batch.current.body.good = 0) : requestClose s = refuse .empty s := if_pos h

theorem requestClose_of_good (h : 1 ≤ s.batch.current.body.good) :
    let why := if s.batch.current.pending = .none then ClosePending.command else s.batch.current.pending
    requestClose s
      = answerOk (serialBytes s.batch.current.body.number ++ byteOf why.code)
          { s with batch := { s.batch with current := { s.batch.current with pending := why } } } :=
  if_neg (Nat.ne_of_gt h)

theorem peekBatch_of_empty (h : s.batch.queue = []) : peekBatch s = refuse .empty s := by
  simp [peekBatch, h]

theorem peekBatch_of_cons {c : ClosedBatch} {rest : List ClosedBatch} (h : s.batch.queue = c :: rest) :
    peekBatch s = answerOk (byteOf s.batch.queue.length ++ byteOf c.reason.code ++ layOut c.body.items) s := by
  simp [peekBatch, h, batchBytes_eq]

theorem ackBatch_of_empty (h : s.batch.queue = []) (n : Serial) : ackBatch n s = refuse .empty s := by
  simp [ackBatch, h]

theorem ackBatch_of_other {c : ClosedBatch} {rest : List ClosedBatch} {n : Serial} (h : s.batch.queue = c :: rest)
    (hn : c.body.number ≠ n) : ackBatch n s = ⟨s, .refused, .mismatch, serialBytes c.body.number⟩ := by
  simp [ackBatch, h, hn]

theorem ackBatch_of_same {c : ClosedBatch} {rest : List ClosedBatch} {n : Serial} (h : s.batch.queue = c :: rest)
    (hn : c.body.number = n) :
    ackBatch n s = answerOk (serialBytes n ++ byteOf rest.length) { s with batch := { s.batch with queue := rest } } := by
  simp [ackBatch, h, hn]

end Batch

/-- Settles O51, command by command. -/
theorem batchCommandsAnswerFromTheQueue : Obligations.BatchCommandsAnswerFromTheQueue := by
  intro p tag s
  refine ⟨fun hend => ?_, fun hend => ?_, fun payload hl hend => ?_⟩
  · intro ended open_ why
    have hbatch : ended.batch = s.batch := by simp [ended]
    refine ⟨fun hgood => exec_batchClose_of_answer hend (requestClose_of_empty (by rwa [hbatch])), fun hgood => ?_⟩
    have htaken := requestClose_of_good (s := ended) (by rwa [hbatch])
    dsimp only at htaken
    rw [hbatch] at htaken ⊢
    exact exec_batchClose_of_answer hend htaken
  · intro ended
    have hbatch : ended.batch = s.batch := by simp [ended]
    rw [← hbatch]
    exact ⟨fun hq => exec_batchPeek_of_answer hend (peekBatch_of_empty hq),
      fun c rest hq => exec_batchPeek_of_answer hend (peekBatch_of_cons hq)⟩
  · intro ended n
    have hbatch : ended.batch = s.batch := by simp [ended]
    rw [← hbatch]
    exact ⟨fun hq => exec_batchAck_of_answer hl hend (ackBatch_of_empty hq _), fun c rest hq =>
      ⟨fun hn => exec_batchAck_of_answer hl hend (ackBatch_of_other hq hn),
        fun hn => exec_batchAck_of_answer hl hend (ackBatch_of_same hq hn)⟩⟩

end Sys2Proof.Machine
end

section
/-! PROOFS. The commands that only read (R26, R27, R53, R102, R139, R158, R175, R186, R200): they change nothing, and what they answer. -/

namespace Sys2Proof.Machine

/-! ## What a read command leaves -/

/-- An answer that leaves the part as it found it. -/
def Answer.OnlyReads (r : Answer) (s : State) : Prop := r.part = s ∧ (r.result = .ok ∨ r.result = .refused)

theorem answerOk_onlyReads (answer : List Byte) (s : State) : (answerOk answer s).OnlyReads s := ⟨rfl, .inl rfl⟩

theorem refuse_onlyReads (reason : Reason) (s : State) : (refuse reason s).OnlyReads s := ⟨rfl, .inr rfl⟩

theorem invalid_onlyReads (kind : InvalidKind) (item field : Nat) (s : State) : (invalid kind item field s).OnlyReads s :=
  ⟨rfl, .inr rfl⟩

theorem withLength_onlyReads {body : State → Answer} {s : State} (h : (body s).OnlyReads s) (n : Nat) (payload : List Byte) :
    (withLength n payload body s).OnlyReads s := by
  unfold withLength
  split
  · exact h
  · exact invalid_onlyReads ..

theorem withSlot_onlyReads {body : Fin 4 → State → Answer} {s : State} (h : ∀ i, (body i s).OnlyReads s) (n : Nat) :
    (withSlot n body s).OnlyReads s := by
  unfold withSlot
  split
  · exact invalid_onlyReads ..
  · exact h _

theorem readConfig_onlyReads (n : Nat) (s : State) : (readConfig n s).OnlyReads s := by
  unfold readConfig
  split
  · exact invalid_onlyReads ..
  · exact answerOk_onlyReads ..

theorem readSatellite_onlyReads (n : Nat) (s : State) : (readSatellite n s).OnlyReads s := by
  unfold readSatellite
  split
  · exact invalid_onlyReads ..
  · exact answerOk_onlyReads ..

theorem readSlot_onlyReads (code : Nat) (i : Fin 4) (s : State) : (readSlot code i s).OnlyReads s := by
  unfold readSlot
  split
  · exact invalid_onlyReads ..
  · split
    · exact refuse_onlyReads ..
    · exact answerOk_onlyReads ..

theorem readSignature_onlyReads (i : Fin 4) (s : State) : (readSignature i s).OnlyReads s := by
  unfold readSignature
  split
  · exact refuse_onlyReads ..
  · exact answerOk_onlyReads ..

theorem readBlank_onlyReads (n : Serial) (s : State) : (readBlank n s).OnlyReads s := by
  unfold readBlank
  split
  · exact answerOk_onlyReads ..
  · exact refuse_onlyReads ..
  · exact refuse_onlyReads ..

theorem peekBatch_onlyReads (s : State) : (peekBatch s).OnlyReads s := by
  unfold peekBatch
  split
  · exact refuse_onlyReads ..
  · exact answerOk_onlyReads ..

/-- Each read command takes its frame and answers by a body that only reads. -/
theorem exec_of_readCommand : ∀ x ∈ readCommands, ∃ body : PortId → List Byte → State → Answer,
    (∀ p payload s, (body p payload s).OnlyReads s)
      ∧ ∀ p tag payload s, exec (x.1 p tag payload) s = .next (takeCommand p x.2 tag payload (body p payload) s) := by
  simp only [readCommands, List.forall_mem_cons, List.not_mem_nil, false_implies, implies_true, and_true]
  and_intros
  · exact ⟨_, fun p payload s => withLength_onlyReads (answerOk_onlyReads (identifyBytes p) s) 0 payload, fun _ _ _ _ => rfl⟩
  · exact ⟨_, fun _ payload s => withLength_onlyReads (body := fun s => answerOk (statusBytes s) s) (answerOk_onlyReads ..) 0 payload,
      fun _ _ _ _ => rfl⟩
  · exact ⟨_, fun _ payload s => withLength_onlyReads (readConfig_onlyReads (u8At payload 0) s) 1 payload, fun _ _ _ _ => rfl⟩
  · exact ⟨_, fun _ payload s => withLength_onlyReads
      (withSlot_onlyReads (fun i => readSlot_onlyReads (u8At payload 1) i s) (u8At payload 0)) 2 payload, fun _ _ _ _ => rfl⟩
  · exact ⟨_, fun _ payload s => withLength_onlyReads (withSlot_onlyReads (fun i => readSignature_onlyReads i s) (u8At payload 0)) 1 payload,
      fun _ _ _ _ => rfl⟩
  · exact ⟨_, fun _ payload s => withLength_onlyReads (readBlank_onlyReads (u32At payload 0) s) 4 payload, fun _ _ _ _ => rfl⟩
  · exact ⟨_, fun _ payload s => withLength_onlyReads (body := fun s => answerOk (registerBytes s) s) (answerOk_onlyReads ..) 0 payload,
      fun _ _ _ _ => rfl⟩
  · exact ⟨_, fun _ payload s => withLength_onlyReads (peekBatch_onlyReads s) 0 payload, fun _ _ _ _ => rfl⟩
  · exact ⟨_, fun _ payload s => withLength_onlyReads (readSatellite_onlyReads (u8At payload 0) s) 1 payload, fun _ _ _ _ => rfl⟩

theorem exec_readCommand {command : PortId → Byte → List Byte → Instr} {code : Byte} (hmem : (command, code) ∈ readCommands)
    {s : State} {p : PortId} {tag : Byte} {payload : List Byte} (hl : payload.length ≤ 61)
    (hend : s.CanEnd p (commandFrame code tag payload)) :
    ∃ (result : Result) (reason : Reason) (answer : List Byte), (result = .ok ∨ result = .refused)
      ∧ exec (command p tag payload) s
        = .next (respond p ⟨code, tag, result, reason, answer⟩ (s.ended p (commandFrame code tag payload))) := by
  obtain ⟨body, hreads, hexec⟩ := exec_of_readCommand _ hmem
  obtain ⟨hpart, hresult⟩ := hreads p payload (s.ended p (commandFrame code tag payload))
  exact ⟨_, _, _, hresult, by rw [hexec, takeCommand_of_canEnd hend hl, hpart]⟩

/-- A command with a payload of its length answers as its body does on the ended transfer. -/
theorem exec_of_answer {s t : State} {p : PortId} {code tag : Byte} {payload : List Byte} {i : Instr}
    (hend : s.CanEnd p (commandFrame code tag payload)) (hl : payload.length ≤ 61) {body : State → Answer}
    (hexec : exec i s = .next (takeCommand p code tag payload (withLength payload.length payload body) s))
    {result : Result} {reason : Reason} {answer : List Byte}
    (ha : body (s.ended p (commandFrame code tag payload)) = ⟨t, result, reason, answer⟩) :
    exec i s = .next (respond p ⟨code, tag, result, reason, answer⟩ t) := by
  rw [hexec, takeCommand_of_answer hend hl ha]

/-! ## What the reads answer -/

section Reads

variable {s : State}

/-- The two bytes of the cycles per minute are some number's, their own where it fits (R10, notes/assumptions/9.md). -/
theorem cyclesPerMinuteBytes_eq (n : Nat) : ∃ v, v < 65536 ∧ (n < 65536 → v = n) ∧ bytes2 v = cyclesPerMinuteBytes n := by
  by_cases h : n < 65536
  · exact ⟨n, h, fun _ => rfl, (if_pos h).symm⟩
  · exact ⟨(Config.cpmField n).toNat, (Config.cpmField n).isLt, fun hn => absurd hn h, (if_neg h).symm⟩

/-- What STATUS and REGISTER_READ answer does not read the ports. -/
theorem statusBytes_ended {p : PortId} {frame : List Byte} (h : s.CanEnd p frame) : statusBytes (s.ended p frame) = statusBytes s := by
  obtain ⟨bytes, -, hended⟩ := ended_port h
  rw [hended]
  rfl

theorem registerBytes_ended {p : PortId} {frame : List Byte} (h : s.CanEnd p frame) :
    registerBytes (s.ended p frame) = registerBytes s := by
  obtain ⟨bytes, -, hended⟩ := ended_port h
  rw [hended]
  rfl

theorem readConfig_of_no_section {n : Nat} (h : 13 ≤ n) (s : State) : readConfig n s = invalid .none 0 1 s := by
  simp [readConfig, configSectionOf_of_ge h]

theorem readConfig_of_section (x : ConfigSection) {m : MachineConfig} (hm : s.config = m) :
    readConfig x.code s = answerOk (byteOf x.code ++ flagByte m.written[x.index.val] ++ layOut (m.sectionItems x)) s := by
  subst hm
  simp [readConfig, configSectionOf_code, configBytes_eq]

theorem readSatellite_of_ge {n : Nat} (h : 8 ≤ n) (s : State) : readSatellite n s = invalid .none 0 1 s := by
  simp [readSatellite, entryNumber, Nat.not_lt.mpr h]

theorem readSatellite_val (k : Fin 8) (s : State) : readSatellite k.val s = answerOk (satelliteBytes s k) s := by
  simp [readSatellite, entryNumber]

/-- A consequence is in force for an entry of its own while the entry is TRIPPED or OFFLINE (R156). -/
theorem entryInForce_own (k : Fin 8) :
    s.entryInForce (s.satConfig k).consequence k = decide ((s.entry k).state = .tripped ∨ (s.entry k).state = .offline) := by
  rw [Bool.eq_iff_iff, decide_eq_true_iff]
  simp [State.entryInForce, State.satConfig, State.entry]

theorem satelliteBytes_ended {p : PortId} {frame : List Byte} (h : s.CanEnd p frame) (k : Fin 8) :
    satelliteBytes (s.ended p frame) k = satelliteBytes s k := by
  obtain ⟨bytes, -, hended⟩ := ended_port h
  rw [hended]
  rfl

/-- SATELLITE_READ's answer, item by item (R158). -/
theorem satelliteBytes_eq (k : Fin 8) :
    satelliteBytes s k
      = byteOf k.val ++ byteOf (s.entry k).state.code ++ optionalItem 2 (fun v : Half => bytes2 v.toNat) (s.entry k).value
        ++ optionalItem 4 serialBytes (s.entry k).lastGood
        ++ [BitVec.ofNat 8 (s.entry k).dwell, BitVec.ofNat 8 (s.entry k).failure,
          if (s.entry k).state = .tripped ∨ (s.entry k).state = .offline then 1 else 0,
          BitVec.ofNat 8 (s.satConfig k).consequence.code, if (s.satConfig k).enable then 1 else 0]
        ++ serialBytes s.sat.round ++ [if s.sat.running then 1 else 0] := by
  simp only [satelliteBytes, entryInForce_own, byteOf, flagByte, decide_eq_true_eq, List.append_assoc, List.cons_append,
    List.nil_append]

theorem readSlot_of_no_section {code : Nat} (h : 7 ≤ code) (i : Fin 4) (s : State) : readSlot code i s = invalid .none 0 2 s := by
  simp [readSlot, profileSectionOf_of_ge h]

theorem readSlot_of_empty (part : ProfileSection) {i : Fin 4} (h : (s.profiles.slot i).content = none) :
    readSlot part.code i s = refuse .empty s := by
  simp [readSlot, profileSectionOf_code, h]

/-- A section with its presence byte, as SLOT_READ gives it (R26, R206). -/
theorem presentBytes_eq (c : Profile) (part : ProfileSection) :
    presentBytes (c.sectionBytes part) = layOut (presentItems (c.sectionItems part)) := by
  rw [sectionBytes_eq]
  cases c.sectionItems part <;> simp [presentBytes, presentItems, layOut_cons, layOut_nil, item1_bytes, byteOf]

theorem readSlot_of_content (part : ProfileSection) {i : Fin 4} {x : ProfileSlot} {c : Profile} (hx : s.profiles.slot i = x)
    (h : x.content = some c) :
    readSlot part.code i s = answerOk (byteOf x.state.code ++ byteOf part.code ++ layOut (presentItems (c.sectionItems part))) s := by
  subst hx
  simp [readSlot, profileSectionOf_code, h, presentBytes_eq]

theorem readSignature_of_empty {i : Fin 4} (h : (s.profiles.slot i).content = none) : readSignature i s = refuse .empty s := by
  simp [readSignature, h]

theorem readSignature_of_content {i : Fin 4} {x : ProfileSlot} {c : Profile} {signature : Half} (hx : s.profiles.slot i = x)
    (h : x.content = some c) (hs : x.signature = some signature) :
    readSignature i s = answerOk (byteOf x.state.code ++ serialBytes c.header.order ++ bytes2 signature.toNat) s := by
  subst hx
  simp [readSignature, h, hs]

end Reads

/-- Settles O39, command by command. -/
theorem readCommandsChangeNothing : Obligations.ReadCommandsChangeNothing := by
  intro p tag s reply
  have hconfig (frame : List Byte) : (s.ended p frame).config = s.config := by simp
  have hprofiles (frame : List Byte) (i : Fin 4) : (s.ended p frame).profiles.slot i = s.profiles.slot i := by simp
  refine ⟨fun command code payload hmem hl hend => exec_readCommand hmem hl hend, fun hend => ?_, fun hend => ?_, fun n => ?_⟩
  · obtain ⟨v, hv, hfits, hbytes⟩ := cyclesPerMinuteBytes_eq s.shaft.cyclesPerMinute
    refine ⟨v, hv, hfits, exec_of_answer hend (by decide) (by rfl) ?_⟩
    rw [statusItems_layOut s v hbytes, ← statusBytes_ended hend]
    rfl
  · refine exec_of_answer hend (by decide) (by rfl) ?_
    rw [registerItems_layOut, ← registerBytes_ended hend]
    rfl
  have hbyte (n : Byte) : byteOf n.toNat = [n] := byteOf_u8At [n] 0
  have hslot {body : Fin 4 → State → Answer} {i : Fin 4} {u : State} {r : Answer} (hn : n.toNat = i.val) (h : body i u = r) :
      withSlot n.toNat body u = r := by rw [hn, withSlot_val, h]
  refine ⟨fun hn hend => ?_, fun hn hend => ?_, fun hn => ⟨fun hend => ?_, fun k hend => ?_⟩, fun x hn hend => ?_, fun k hn hend => ?_,
    fun i hn => ⟨fun hend => ⟨fun hempty => ?_, fun c signature hc hs => ?_⟩, fun k hk hend => ?_,
      fun k part hk hend => ⟨fun hempty => ?_, fun c hc => ?_⟩⟩⟩
  · exact exec_of_answer hend (by simp) (by rfl) (readConfig_of_no_section hn _)
  · exact exec_of_answer hend (by simp) (by rfl) (readSatellite_of_ge hn _)
  · exact exec_of_answer hend (by simp) (by rfl) (withSlot_of_ge hn ..)
  · exact exec_of_answer hend (by simp) (by rfl) (withSlot_of_ge hn ..)
  · have hread := readConfig_of_section x (hconfig (commandFrame 0x19 tag [n]))
    rw [← hn, hbyte] at hread
    exact exec_of_answer hend (by simp) (by rfl) hread
  · refine exec_of_answer hend (by simp) (by rfl) ((congrArg (readSatellite · _) hn).trans ((readSatellite_val k _).trans ?_))
    rw [satelliteBytes_ended hend, satelliteBytes_eq, ← hn, hbyte]
    cases (s.entry k).value <;> cases (s.entry k).lastGood <;> rfl
  · exact exec_of_answer hend (by simp) (by rfl) (hslot hn (readSignature_of_empty (by rwa [hprofiles])))
  · exact exec_of_answer hend (by simp) (by rfl) (hslot hn (readSignature_of_content (hprofiles _ i) hc hs))
  · exact exec_of_answer hend (by simp) (by rfl) (hslot hn (readSlot_of_no_section hk i _))
  · have hread := readSlot_of_empty part (s := s.ended p (commandFrame 0x25 tag [n, k])) (i := i) (by rwa [hprofiles])
    rw [← hk] at hread
    exact exec_of_answer hend (by simp) (by rfl) (hslot hn hread)
  · have hread := readSlot_of_content part (hprofiles (commandFrame 0x25 tag [n, k]) i) hc
    rw [← hk, hbyte] at hread
    exact exec_of_answer hend (by simp) (by rfl) (hslot hn hread)

end Sys2Proof.Machine
end
